-- ==== Sys2Proof/Word.lean ====
section
/-! DEFINITION. The word type of the machine: every register, memory cell, address and immediate is a byte (00_scope.md R5). -/

namespace Sys2Proof

/-- A byte: an integer 0..255 (00_scope.md R5). Its addition wraps mod 256, as R5 says. -/
abbrev Byte := BitVec 8

/-- `int(b)`: the byte read as an unsigned integer, in the wide domain of integers with no bound
(00_scope.md R5, 40_alu_unit.md R101). No signed reading of a byte exists in this machine. -/
def wideOf (b : Byte) : Int := (b.toNat : Int)

end Sys2Proof
end

