-- ==== Sys2Proof/Syntax.lean ====
section
/-! DEFINITION. The instructions: one constructor per row of spec/opcode_table.json, with the fields the row's format
gives it (30_encoding.md R71, R76 to R78). -/

namespace Sys2Proof

/-- The four general registers (10_state.md R20). -/
inductive Reg
  | r1 | r2 | r3 | r4
deriving DecidableEq, Repr

/-- What the first byte of an instruction selects: a row of the opcode table, before its fields are read
(30_encoding.md R73 to R75). The length of the instruction depends on this alone (R79). -/
inductive Op
  | data | ld | st | jmp | jmpr | jmpif | int | hlt | cli
  | add | sub | inc | dec | cmp | push | pop
deriving DecidableEq, Repr

/-- A decoded instruction. Field bits that a row ignores (30_encoding.md R80) are no part of it, so every term of
this type is an instruction the machine can execute; `a` and `b` are the register fields A and B, `cond` the
4-bit selector (R77), `imm` the operand byte (R78). -/
inductive Instr
  | data (a : Reg) (imm : Byte)
  | ld (a b : Reg)
  | st (a b : Reg)
  | jmp (imm : Byte)
  | jmpr (a : Reg)
  | jmpif (cond : BitVec 4) (imm : Byte)
  | int (imm : Byte)
  | hlt
  | cli
  | add (a b : Reg)
  | sub (a b : Reg)
  | inc (a : Reg)
  | dec (a : Reg)
  | cmp (a b : Reg)
  | push (a : Reg)
  | pop (a : Reg)
deriving DecidableEq, Repr

/-- The row of the opcode table an instruction belongs to. -/
def Instr.op : Instr → Op
  | .data _ _ => .data
  | .ld _ _ => .ld
  | .st _ _ => .st
  | .jmp _ => .jmp
  | .jmpr _ => .jmpr
  | .jmpif _ _ => .jmpif
  | .int _ => .int
  | .hlt => .hlt
  | .cli => .cli
  | .add _ _ => .add
  | .sub _ _ => .sub
  | .inc _ => .inc
  | .dec _ => .dec
  | .cmp _ _ => .cmp
  | .push _ => .push
  | .pop _ => .pop

end Sys2Proof
end

