-- ==== Sys2Proof/Config.lean ====
section
/-! DEFINITION. The configuration: the named parameters of 00_scope.md R4, each a field, so that a claim may name one
or quantify over it; and the free values, constants with no body that nothing can evaluate. The default values of R4
stand in Sys2Proof/Decode.lean (opcode numbers) and Sys2Proof/Machine/Defaults.lean (all others). -/

namespace Sys2Proof

/-- The opcode numbers (00_scope.md R4, `OPC_*`; decision D1): the 3-bit opcode of each instruction within its class
and the 4-bit sub-functions of the SYS group (30_encoding.md R73 to R75). The class bit and the field positions are
fixed by the source and are no parameters. -/
structure OpcodeMap where
  data : BitVec 3
  ld : BitVec 3
  st : BitVec 3
  jmp : BitVec 3
  jmpr : BitVec 3
  jmpif : BitVec 3
  int : BitVec 3
  /-- the control-class opcode that HLT and CLI share (90_conflicts.md C1) -/
  sys : BitVec 3
  /-- the SYS sub-function of HLT -/
  hlt : BitVec 4
  /-- the SYS sub-function of CLI -/
  cli : BitVec 4
  add : BitVec 3
  sub : BitVec 3
  inc : BitVec 3
  dec : BitVec 3
  cmp : BitVec 3
  push : BitVec 3
  pop : BitVec 3
deriving DecidableEq, Repr

/-- The named parameters of 00_scope.md R4. -/
structure Config where
  /-- `OPC_*` -/
  opc : OpcodeMap
  /-- `KBD_BASE` -/
  kbdBase : Byte
  /-- `KBD_MAX`, 10 in every admissible configuration (93_implementation_defined.md U14) -/
  kbdMax : Nat
  /-- `SCREEN_BASE` -/
  screenBase : Byte
  /-- `SCREEN_W`, a size with no bound of its own: DESIGN CHOICE, R4's "(one byte each)" is read as of the pixels
  (assumption 31) -/
  screenW : Nat
  /-- `SCREEN_H`, a size with no bound of its own, as `SCREEN_W` (assumption 31) -/
  screenH : Nat
  /-- `PROG_BASE` -/
  progBase : Byte
  /-- `PROG_CAP` -/
  progCap : Nat
  /-- `COND_C` -/
  condC : BitVec 4
  /-- `COND_Z` -/
  condZ : BitVec 4
  /-- `CARRY_LO` -/
  carryLo : Int
  /-- `CARRY_HI` -/
  carryHi : Int
  /-- `ZERO_AFTER_WRAP` -/
  zeroAfterWrap : Bool
  /-- `ACK_CLEARS_INT` -/
  ackClearsInt : Bool
  /-- `INT_SCREEN`, 1 in every admissible configuration (93_implementation_defined.md U15) -/
  intScreen : Byte
  /-- `INT_KEYBOARD`, 2 in every admissible configuration (93_implementation_defined.md U15) -/
  intKeyboard : Byte
  /-- `SCR_X_REG` -/
  scrXReg : Reg
  /-- `SCR_Y_REG` -/
  scrYReg : Reg
  /-- `SCR_COLOR_REG` -/
  scrColorReg : Reg
  /-- `KBD_ADDR_REG` -/
  kbdAddrReg : Reg
  /-- `KBD_COUNT_REG` -/
  kbdCountReg : Reg
  /-- `FLAG_BIT_C` -/
  flagBitC : Fin 8
  /-- `FLAG_BIT_S` -/
  flagBitS : Fin 8
  /-- `FLAG_BIT_Z` -/
  flagBitZ : Fin 8
  /-- `FLAG_BIT_E` -/
  flagBitE : Fin 8
  /-- `FLAG_BIT_L` -/
  flagBitL : Fin 8
deriving DecidableEq, Repr

/-- `STACK_BASE = PROG_BASE + PROG_CAP` (00_scope.md R4), the first address above the program region. -/
def Config.stackBase (cfg : Config) : Byte := cfg.progBase + BitVec.ofNat 8 cfg.progCap

/-- The number of pixels, `SCREEN_W * SCREEN_H` (10_state.md R34). -/
def Config.pixels (cfg : Config) : Nat := cfg.screenW * cfg.screenH

/-- FREE VALUE. The `n`-th unconstrained bit that `draw()` gives (00_scope.md R6): what the flags E and L hold after a
flag refresh (40_alu_unit.md R114). It has no body: no proof can see a value of it (assumption 4, safe). -/
opaque Config.draw : Nat → Bool

/-- FREE VALUE. The unconstrained byte that Shl and Shr by 8 or more give (40_alu_unit.md R111, R112;
93_implementation_defined.md U6). No instruction reaches it (assumption 5, safe). -/
opaque Config.drawByte : Nat → Byte

end Sys2Proof
end

