-- ==== Sys2Proof/Decode.lean ====
section
/-! DEFINITION. The decoder, total on any bytes and refusing by name, and after it the encoder: the layout of
30_encoding.md R70 to R81 with the opcode numbers taken from an `OpcodeMap` (00_scope.md R4). -/

namespace Sys2Proof

/-- The default opcode numbers (30_encoding.md R73, R74, R75; decision D1; assumption 3). -/
def defaultOpcodes : OpcodeMap where
  data := 0b000#3
  ld := 0b001#3
  st := 0b010#3
  jmp := 0b011#3
  jmpr := 0b100#3
  jmpif := 0b101#3
  int := 0b110#3
  sys := 0b111#3
  hlt := 0b0000#4
  cli := 0b0001#4
  add := 0b000#3
  sub := 0b001#3
  inc := 0b010#3
  dec := 0b011#3
  cmp := 0b100#3
  push := 0b101#3
  pop := 0b110#3

/-! ### Fields of the instruction byte (30_encoding.md R71) -/

/-- `class = IR[7]`: set for the ALU-class. -/
def classField (b : Byte) : Bool := b.getLsbD 7

/-- `op = IR[6:4]`. -/
def opField (b : Byte) : BitVec 3 := b.extractLsb' 4 3

/-- `cond = sub = IR[3:0]`: the condition selector of JMPIF (R77) and the sub-function of the SYS group (R75). -/
def lowField (b : Byte) : BitVec 4 := b.extractLsb' 0 4

/-- The register a 2-bit code names: `00` R1, `01` R2, `10` R3, `11` R4 (10_state.md R20, 30_encoding.md R76). -/
def regOfCode (c : BitVec 2) : Reg :=
  if c = 0b00#2 then .r1 else if c = 0b01#2 then .r2 else if c = 0b10#2 then .r3 else .r4

/-- The 2-bit code of a register (30_encoding.md R76). -/
def regCode : Reg → BitVec 2
  | .r1 => 0b00#2
  | .r2 => 0b01#2
  | .r3 => 0b10#2
  | .r4 => 0b11#2

/-- Field A, `IR[3:2]`. -/
def aField (b : Byte) : Reg := regOfCode (b.extractLsb' 2 2)

/-- Field B, `IR[1:0]`. -/
def bField (b : Byte) : Reg := regOfCode (b.extractLsb' 0 2)

/-! ### Decoding -/

/-- Why bytes are no instruction. -/
inductive DecodeError
  /-- the first byte has no assignment (30_encoding.md R81): the machine raises UnknownOpcode -/
  | unknownOpcode
  /-- a byte list ends before a 2-byte instruction's operand byte; the machine never meets this, since memory has no end
  (20_memory.md R57) -/
  | missingOperand
  /-- an empty byte list holds no instruction; the machine never meets this -/
  | noBytes
deriving DecidableEq, Repr

/-- The row of the opcode table that a first byte selects (30_encoding.md R72 to R75, R122). Rows are tried in the
table's order, which matters only for opcode maps with two equal numbers (assumption 25). -/
def decodeOp (m : OpcodeMap) (b : Byte) : Except DecodeError Op :=
  let op := opField b
  if classField b then
    if op = m.add then .ok .add
    else if op = m.sub then .ok .sub
    else if op = m.inc then .ok .inc
    else if op = m.dec then .ok .dec
    else if op = m.cmp then .ok .cmp
    else if op = m.push then .ok .push
    else if op = m.pop then .ok .pop
    else .error .unknownOpcode
  else
    if op = m.data then .ok .data
    else if op = m.ld then .ok .ld
    else if op = m.st then .ok .st
    else if op = m.jmp then .ok .jmp
    else if op = m.jmpr then .ok .jmpr
    else if op = m.jmpif then .ok .jmpif
    else if op = m.int then .ok .int
    else if op = m.sys then
      if lowField b = m.hlt then .ok .hlt
      else if lowField b = m.cli then .ok .cli
      else .error .unknownOpcode
    else .error .unknownOpcode

/-- The length in bytes that a row gives: 2 for DATA, JMP, JMPIF and INT, else 1 (30_encoding.md R79). -/
def opLength : Op → Nat
  | .data => 2
  | .ld => 1
  | .st => 1
  | .jmp => 2
  | .jmpr => 1
  | .jmpif => 2
  | .int => 2
  | .hlt => 1
  | .cli => 1
  | .add => 1
  | .sub => 1
  | .inc => 1
  | .dec => 1
  | .cmp => 1
  | .push => 1
  | .pop => 1

/-- The length in bytes of an instruction (30_encoding.md R79). -/
def instrLength (i : Instr) : Nat := opLength i.op

/-- The instruction of a row, with its fields read from the instruction byte `ir` and its operand byte `imm`, which
1-byte rows do not look at (30_encoding.md R76 to R78). A field the row does not use is ignored (R80, decision D3). -/
def instrOf (op : Op) (ir imm : Byte) : Instr :=
  match op with
  | .data => .data (aField ir) imm
  | .ld => .ld (aField ir) (bField ir)
  | .st => .st (aField ir) (bField ir)
  | .jmp => .jmp imm
  | .jmpr => .jmpr (aField ir)
  | .jmpif => .jmpif (lowField ir) imm
  | .int => .int imm
  | .hlt => .hlt
  | .cli => .cli
  | .add => .add (aField ir) (bField ir)
  | .sub => .sub (aField ir) (bField ir)
  | .inc => .inc (aField ir)
  | .dec => .dec (aField ir)
  | .cmp => .cmp (aField ir) (bField ir)
  | .push => .push (aField ir)
  | .pop => .pop (aField ir)

/-- Decoding of a byte list: the instruction at its head and the bytes after it. -/
def decode (m : OpcodeMap) : List Byte → Except DecodeError (Instr × List Byte)
  | [] => .error .noBytes
  | ir :: rest =>
    match decodeOp m ir with
    | .error e => .error e
    | .ok op =>
      if opLength op = 1 then .ok (instrOf op ir 0, rest)
      else
        match rest with
        | [] => .error .missingOperand
        | imm :: rest' => .ok (instrOf op ir imm, rest')

/-! ### Encoding -/

/-- The instruction byte `class || op || low`, `low` being bits 3:0 (30_encoding.md R71). -/
def firstByte (cls : BitVec 1) (op : BitVec 3) (low : BitVec 4) : Byte := cls ++ op ++ low

/-- The fields `A || B` as bits 3:0 (30_encoding.md R71). -/
def regPair (a b : Reg) : BitVec 4 := regCode a ++ regCode b

/-- Field A with zeros in field B, as the assembler writes it for a lone register (30_encoding.md R76, R80). -/
def regAlone (a : Reg) : BitVec 4 := regCode a ++ 0b00#2

/-- The bytes of an instruction, lowest address first, unused fields zero (30_encoding.md R73 to R75, R80, R88). -/
def encode (m : OpcodeMap) : Instr → List Byte
  | .data a imm => [firstByte 0#1 m.data (regAlone a), imm]
  | .ld a b => [firstByte 0#1 m.ld (regPair a b)]
  | .st a b => [firstByte 0#1 m.st (regPair a b)]
  | .jmp imm => [firstByte 0#1 m.jmp 0#4, imm]
  | .jmpr a => [firstByte 0#1 m.jmpr (regAlone a)]
  | .jmpif cond imm => [firstByte 0#1 m.jmpif cond, imm]
  | .int imm => [firstByte 0#1 m.int 0#4, imm]
  | .hlt => [firstByte 0#1 m.sys m.hlt]
  | .cli => [firstByte 0#1 m.sys m.cli]
  | .add a b => [firstByte 1#1 m.add (regPair a b)]
  | .sub a b => [firstByte 1#1 m.sub (regPair a b)]
  | .inc a => [firstByte 1#1 m.inc (regAlone a)]
  | .dec a => [firstByte 1#1 m.dec (regAlone a)]
  | .cmp a b => [firstByte 1#1 m.cmp (regPair a b)]
  | .push a => [firstByte 1#1 m.push (regAlone a)]
  | .pop a => [firstByte 1#1 m.pop (regAlone a)]

/-! ### The opcode table's numbering of bits -/

/-- The two bytes of an instruction whose bits are `w` in the opcode table's numbering: bit 0 is the least significant
bit of the first byte, the operand byte is bits 15..8, and every bit from `nbits` up is 0. Two bytes are the longest
instruction (30_encoding.md R70). -/
def tableBytes (nbits w : Nat) : Byte × Byte :=
  let v := w % 2 ^ nbits
  (BitVec.ofNat 8 v, BitVec.ofNat 8 (v / 256))

/-- The instruction the decoder reads, with the default opcode numbers, from bits numbered as spec/opcode_table.json
numbers them. -/
def decodeTableWord (nbits w : Nat) : Option Instr :=
  match decode defaultOpcodes [(tableBytes nbits w).1, (tableBytes nbits w).2] with
  | .ok (i, _) => some i
  | .error _ => none

end Sys2Proof
end

