-- ==== Sys2Proof/Machine/Defaults.lean ====
section
/-! DEFINITION. The default configuration: the value 00_scope.md R4 gives each parameter. -/

namespace Sys2Proof.Machine

/-- The default of every parameter of 00_scope.md R4. The addresses, sizes, selectors, carry range, zero rule,
acknowledgement rule, peripheral registers and flag bits are the spec's own decisions (D1, D2, D4, D8, D9, D11, D17,
D19; assumption 3). -/
def defaultConfig : Config where
  opc := defaultOpcodes
  kbdBase := 0x00#8
  kbdMax := 10
  screenBase := 0x10#8
  screenW := 8
  screenH := 6
  progBase := 0x40#8
  progCap := 128
  condC := 8#4
  condZ := 1#4
  carryLo := -128
  carryHi := 127
  zeroAfterWrap := false
  ackClearsInt := true
  intScreen := 1#8
  intKeyboard := 2#8
  scrXReg := .r1
  scrYReg := .r2
  scrColorReg := .r3
  kbdAddrReg := .r1
  kbdCountReg := .r2
  flagBitC := 0
  flagBitS := 1
  flagBitZ := 2
  flagBitE := 3
  flagBitL := 4

end Sys2Proof.Machine
end

