-- ==== Sys2Proof/Machine/State.lean ====
section
/-! DEFINITION. The state: every piece of state 10_state.md gives the machine, as plain data; beside it, under `env`,
what that file calls parameters of the step relation (the configuration, the image handed to boot, the schedule of host
calls), since one step takes the state alone. -/

namespace Sys2Proof.Machine

/-- The four general registers (10_state.md R20). -/
structure Regs where
  r1 : Byte
  r2 : Byte
  r3 : Byte
  r4 : Byte
deriving DecidableEq, Repr

/-- The five flags, one bit each (10_state.md R27). -/
structure Flags where
  /-- carry -/
  c : Bool
  /-- sign -/
  s : Bool
  /-- zero -/
  z : Bool
  /-- equal: an unconstrained bit after each refresh (40_alu_unit.md R114) -/
  e : Bool
  /-- less-than: an unconstrained bit after each refresh (40_alu_unit.md R114) -/
  l : Bool
deriving DecidableEq, Repr

/-- The kinds of fault the machine raises, and no others (10_state.md R31, 60_exceptions.md R190). -/
inductive FaultKind
  | unknownOpcode
  | stackOverflow
  | screenIndexOutOfRange
  | imageTooLarge
deriving DecidableEq, Repr

/-- What the latch FAULT holds: the kind, and IAR as it was when the fault was raised (10_state.md R31). -/
structure FaultRecord where
  kind : FaultKind
  iar : Byte
deriving DecidableEq, Repr

/-- The two peripherals. The source gives their ids no numbers, so they are names (93_implementation_defined.md U12;
assumption 23). -/
inductive Peripheral
  | keyboard
  | screen
deriving DecidableEq, Repr

/-- The five entry points of the host (60_exceptions.md R215). -/
inductive HostCall
  /-- `cycle()`: one CPU step -/
  | cycle
  /-- `process_peripherals()`: one tick -/
  | tick
  /-- `pass_to_peripheral(id, value)`: a delivery -/
  | deliver (id : Peripheral) (value : Byte)
  /-- `boot()` of an image -/
  | boot (img : List Byte)
  /-- `reset()` -/
  | reset
deriving DecidableEq, Repr

/-- What an entry point returns to the host (41_cycle.md R126, 60_exceptions.md R215). -/
inductive Reply
  /-- a delivery returns nothing -/
  | nothing
  /-- boot, reset and the tick return ok -/
  | ok
  /-- `cycle()` returns true, or false exactly when HLT was executed -/
  | running (go : Bool)
  /-- the error value of an entry point that raised a fault (60_exceptions.md R194) -/
  | error (f : FaultRecord)
deriving DecidableEq, Repr

/-- The parameters of the step relation, and the model's own counter of free values. -/
structure Env where
  /-- the configuration (00_scope.md R4; assumption 2); no step changes it -/
  cfg : Config
  /-- the image of the most recent boot, which `reset()` boots again (70_reset_and_hazards.md R240; assumption 10) -/
  image : List Byte
  /-- the host calls still to come, first one first; when none is listed the host calls `cycle()` (assumption 1) -/
  calls : List HostCall
  /-- THE MODEL'S OWN FIELD: how many free bits have been drawn (assumption 4) -/
  draws : Nat
  /-- what the last entry point returned (41_cycle.md R126; assumption 13) -/
  reply : Reply
deriving DecidableEq, Repr

/-- Memory as (address, byte) pairs in one canonical form: addresses strictly rising, no entry equal to what an
unlisted address reads as (`Memory.wf` in Sys2Proof/Machine/Ops.lean). -/
abbrev Memory := List Host.Cell

/-- The state of the machine (10_state.md). -/
structure State where
  /-- R1 to R4 (R20) -/
  regs : Regs
  /-- the program counter (R21) -/
  iar : Byte
  /-- the memory address register (R22) -/
  mar : Byte
  /-- the instruction register (R23) -/
  ir : Byte
  /-- the register OUT, which nothing reads or writes (R24) -/
  out : Byte
  /-- the stack pointer: the next free slot (R25) -/
  sp : Byte
  /-- the pending interrupt code (R26) -/
  int : Byte
  /-- the flags (R27) -/
  flags : Flags
  /-- the interrupt-acknowledgement latch IACK (R29) -/
  iack : Bool
  /-- the latch HALTED (R30) -/
  halted : Bool
  /-- the latch FAULT (R31) -/
  fault : Option FaultRecord
  /-- the 256 bytes of memory (R32) -/
  mem : Memory
  /-- the keyboard's buffer KBUF, oldest key first (R33) -/
  kbuf : List Byte
  /-- the screen's pixel buffer PIX (R34) -/
  pix : List Byte
  /-- what 10_state.md calls parameters of the step relation -/
  env : Env
deriving DecidableEq, Repr

/-- Why a step does not exist. The spec's own faults (UnknownOpcode and the others of R190) are no outcome of this type:
the step that raises one answers a next state with FAULT set, as R194 describes. -/
inductive Fault
  /-- Raised by `cycle()` while HALTED = 1: the CPU has no step until reset (41_cycle.md R127). Safe: the model stops
  where the spec gives no transition (assumption 7). -/
  | halted
  /-- Raised by `cycle()` and by the tick while FAULT is not none: neither has a step (60_exceptions.md R194, R200).
  Safe: the model stops where the spec gives no transition (assumption 6). -/
  | faultLatched (f : FaultRecord)
deriving DecidableEq, Repr

/-- Why an instruction has no meaning in this model. -/
inductive Refusal
  /-- Raised by an arm of exec whose instruction is not modelled yet; no arm is left that raises it. Safe: the model
  stops. -/
  | notModelled (mnemonic : String)
deriving DecidableEq, Repr

/-! ### Updates of one field -/

/-- Replaces the general registers. -/
def State.setRegs (s : State) (v : Regs) : State := { s with regs := v }
/-- `IAR <- v`. -/
def State.setIar (s : State) (v : Byte) : State := { s with iar := v }
/-- `MAR <- v`. -/
def State.setMar (s : State) (v : Byte) : State := { s with mar := v }
/-- `IR <- v`. -/
def State.setIr (s : State) (v : Byte) : State := { s with ir := v }
/-- `SP <- v`. -/
def State.setSp (s : State) (v : Byte) : State := { s with sp := v }
/-- `INT <- v`. -/
def State.setInt (s : State) (v : Byte) : State := { s with int := v }
/-- Replaces all five flags. -/
def State.setFlags (s : State) (v : Flags) : State := { s with flags := v }
/-- `IACK <- v`. -/
def State.setIack (s : State) (v : Bool) : State := { s with iack := v }
/-- `HALTED <- v`. -/
def State.setHalted (s : State) (v : Bool) : State := { s with halted := v }
/-- `FAULT <- v`. -/
def State.setFault (s : State) (v : Option FaultRecord) : State := { s with fault := v }
/-- Replaces memory. -/
def State.setMem (s : State) (v : Memory) : State := { s with mem := v }
/-- `KBUF <- v`. -/
def State.setKbuf (s : State) (v : List Byte) : State := { s with kbuf := v }
/-- `PIX <- v`. -/
def State.setPix (s : State) (v : List Byte) : State := { s with pix := v }
/-- Replaces the image of the most recent boot. -/
def State.setImage (s : State) (v : List Byte) : State := { s with env := { s.env with image := v } }
/-- Replaces the pending host calls. -/
def State.setCalls (s : State) (v : List HostCall) : State := { s with env := { s.env with calls := v } }
/-- Replaces the draw counter. -/
def State.setDraws (s : State) (v : Nat) : State := { s with env := { s.env with draws := v } }
/-- Records what the entry point returned. -/
def State.setReply (s : State) (v : Reply) : State := { s with env := { s.env with reply := v } }

/-! ### Reset -/

/-- A machine right after reset (10_state.md R35), for a configuration, with the empty image booted: every register 0
(decision D5, assumption 8), IAR and MAR at PROG_BASE, SP at STACK_BASE, memory all zero, peripherals at their
defaults. -/
def State.resetWith (cfg : Config) : State where
  regs := ⟨0#8, 0#8, 0#8, 0#8⟩
  iar := cfg.progBase
  mar := cfg.progBase
  ir := 0#8
  out := 0#8
  sp := cfg.stackBase
  int := 0#8
  flags := ⟨false, false, false, false, false⟩
  iack := false
  halted := false
  fault := none
  mem := []
  kbuf := []
  pix := List.replicate cfg.pixels 0#8
  env := { cfg := cfg, image := [], calls := [], draws := 0, reply := .ok }

/-- The machine right after reset (10_state.md R35) with the default configuration (assumption 3) and the empty image
(assumption 9). -/
def State.reset : State := State.resetWith defaultConfig

/-- A freshly created machine before its first boot (70_reset_and_hazards.md R242): as after reset, but IAR and MAR
still 0x00. DESIGN CHOICE: where the spec names the image of the most recent boot and there is none, it is the empty image,
so that `reset()` here boots the empty image (assumption 27). -/
def State.fresh (cfg : Config) : State := ((State.resetWith cfg).setIar 0#8).setMar 0#8

end Sys2Proof.Machine
end

