-- ==== Sys2Proof/Machine/Ops.lean ====
section
/-! DEFINITION. The named operations over memory and registers, the end of an instruction (fall through or jump), and
raising a fault, which is all that taking an exception is in this machine (60_exceptions.md R194, R196). -/

namespace Sys2Proof.Machine

/-! ### Memory (20_memory.md R50, R51) -/

/-- What a cell that no entry lists holds: 0x00, the reset contents of every byte (10_state.md R35). -/
def unlistedByte : Byte := 0#8

/-- Addresses from `lo` up to 255, strictly rising, and no entry that equals `unlistedByte`. -/
def memWfFrom (lo : Nat) : Memory → Bool
  | [] => true
  | (k, v) :: rest => decide (lo ≤ k) && decide (k < 256) && decide (v ≠ unlistedByte) && memWfFrom (k + 1) rest

/-- The canonical form of memory: equal memories are equal lists. -/
def Memory.wf (m : Memory) : Bool := memWfFrom 0 m

/-- The byte at an address number. -/
def cellAt : Memory → Nat → Byte
  | [], _ => unlistedByte
  | (k, v) :: rest, a => if k = a then v else cellAt rest a

/-- An entry put before `rest`, unless it says what an unlisted address says anyway. -/
def consCell (a : Nat) (v : Byte) (rest : Memory) : Memory := if v = unlistedByte then rest else (a, v) :: rest

/-- Memory with the byte at an address number replaced, in canonical form. -/
def putCell : Memory → Nat → Byte → Memory
  | [], a, v => consCell a v []
  | (k, w) :: rest, a, v =>
    if a < k then consCell a v ((k, w) :: rest)
    else if a = k then consCell a v rest
    else (k, w) :: putCell rest a v

/-- `MemRead(a, 1)` (20_memory.md R51): total, no fault, no side effect (R56). -/
def memRead (m : Memory) (a : Byte) : Byte := cellAt m a.toNat

/-- `MemWrite(a, 1, v)` (20_memory.md R51): total, no fault, every other cell unchanged. -/
def memWrite (m : Memory) (a : Byte) (v : Byte) : Memory := putCell m a.toNat v

/-- Consecutive bytes stored from `a` upward, the first at the lowest address: the image copy of boot
(70_reset_and_hazards.md R241) and the keyboard's drain (60_exceptions.md R203). Addresses wrap mod 256, which no
admissible configuration reaches (20_memory.md R62; assumption 24). -/
def memWriteAll (m : Memory) (a : Byte) : List Byte → Memory
  | [] => m
  | v :: vs => memWriteAll (memWrite m a v) (a + 1#8) vs

/-! ### Registers (10_state.md R20) -/

/-- The register `r` of a register file. -/
def getReg (g : Regs) : Reg → Byte
  | .r1 => g.r1
  | .r2 => g.r2
  | .r3 => g.r3
  | .r4 => g.r4

/-- A register file with `r` replaced. -/
def putReg (g : Regs) (r : Reg) (v : Byte) : Regs :=
  match r with
  | .r1 => { g with r1 := v }
  | .r2 => { g with r2 := v }
  | .r3 => { g with r3 := v }
  | .r4 => { g with r4 := v }

/-- `x[r]` (00_scope.md R6). No register is hardwired (10_state.md R20). -/
def readReg (r : Reg) (s : State) : Byte := getReg s.regs r

/-- `x[r] <- v` (00_scope.md R6). -/
def writeReg (r : Reg) (v : Byte) (s : State) : State := s.setRegs (putReg s.regs r v)

/-- `MemWrite(a, 1, v)` on the machine's memory. -/
def storeByte (a v : Byte) (s : State) : State := s.setMem (memWrite s.mem a v)

/-! ### The end of an instruction (41_cycle.md R123, R125) -/

/-- Fall through: `IAR <- (IAR + len) mod 256`. -/
def fallThrough (len : Nat) (s : State) : State := s.setIar (s.iar + BitVec.ofNat 8 len)

/-- Jump: `IAR <- t`, with no advance added (41_cycle.md R125, 90_conflicts.md C4). -/
def jumpTo (t : Byte) (s : State) : State := s.setIar t

/-! ### Taking an exception -/

/-- `raise Fault(kind)` (00_scope.md R6, 60_exceptions.md R194): FAULT <- (kind, IAR). Nothing else is saved or changed,
no handler runs and IAR stays where it is (R196); nothing returns from it but the host's reset (R197). -/
def raiseFault (kind : FaultKind) (s : State) : State := s.setFault (some { kind := kind, iar := s.iar })

end Sys2Proof.Machine
end

