-- ==== Sys2Proof/Machine/Flags.lean ====
section
/-! DEFINITION. The flags: how they are derived from a wide result, how JMPIF tests them, and the byte the host sees. -/

namespace Sys2Proof.Machine

/-- `flags_of(w)` (40_alu_unit.md R102), from the wide result before any wrap or clamp. All five flags are replaced;
`e` and `l` are the unconstrained bits that E and L receive (R114). -/
def flagsOf (cfg : Config) (w : Int) (e l : Bool) : Flags where
  c := decide (w < cfg.carryLo) || decide (w > cfg.carryHi)
  s := decide (w < 0)
  z := if cfg.zeroAfterWrap then decide (w % 256 = 0) else decide (w = 0)
  e := e
  l := l

/-- `match_flags(code)` (40_alu_unit.md R113): only the carry and the zero selector ever answer true; the other 14 are
reserved and always false. -/
def matchFlags (cfg : Config) (f : Flags) (code : BitVec 4) : Bool :=
  if code = cfg.condC then f.c
  else if code = cfg.condZ then f.z
  else false

/-- One flag at its bit position. -/
def flagAt (b : Bool) (pos : Fin 8) : Byte := if b then 1#8 <<< pos.val else 0#8

/-- The flags packed into the byte the host reads (10_state.md R37): each at its `FLAG_BIT_*`, the others 0. -/
def flagsByte (cfg : Config) (f : Flags) : Byte :=
  flagAt f.c cfg.flagBitC ||| flagAt f.s cfg.flagBitS ||| flagAt f.z cfg.flagBitZ ||| flagAt f.e cfg.flagBitE |||
    flagAt f.l cfg.flagBitL

end Sys2Proof.Machine
end

