-- ==== Sys2Proof/Machine/Alu.lean ====
section
/-! DEFINITION. The ALU (40_alu_unit.md): a function of its inputs, with no state of its own (R100). Its five bitwise
operations are reached by no instruction (R115). -/

namespace Sys2Proof.Machine

/-- The arithmetic operations and Compare (40_alu_unit.md R103 to R107). -/
inductive ArithOp
  | add | subtract | increment | decrement | compare
deriving DecidableEq, Repr

/-- The bitwise operations (40_alu_unit.md R108 to R112). -/
inductive BitOp
  | or | and | not | shl | shr
deriving DecidableEq, Repr

/-- The operations of the ALU. -/
inductive AluOp
  | arith (op : ArithOp)
  | bits (op : BitOp)
deriving DecidableEq, Repr

/-- What the ALU answers: a result byte and new values for the five flags (40_alu_unit.md R100). -/
structure AluOut where
  result : Byte
  flags : Flags
deriving DecidableEq, Repr

/-- The wide result `w` of an arithmetic operation, its inputs read as unsigned integers (40_alu_unit.md R101, R103 to
R107; decision D8). One-operand operations use `a` only. -/
def arithWide (op : ArithOp) (a b : Byte) : Int :=
  match op with
  | .add => wideOf a + wideOf b
  | .subtract => wideOf a - wideOf b
  | .increment => wideOf a + 1
  | .decrement => wideOf a - 1
  | .compare => wideOf a - wideOf b

/-- `w mod 256` as a byte (40_alu_unit.md R103, R105). -/
def wrapByte (w : Int) : Byte := BitVec.ofInt 8 w

/-- `max(w, 0)` as a byte: a negative result is stored as 0 (40_alu_unit.md R104, R106; 90_conflicts.md C7). -/
def clampByte (w : Int) : Byte := BitVec.ofInt 8 (max w 0)

/-- The result byte of an arithmetic operation. Compare's is that of Subtract, and its instruction discards it
(40_alu_unit.md R107). -/
def arithResult (op : ArithOp) (w : Int) : Byte :=
  match op with
  | .add => wrapByte w
  | .subtract => clampByte w
  | .increment => wrapByte w
  | .decrement => clampByte w
  | .compare => clampByte w

/-- The result byte of a bitwise operation (40_alu_unit.md R108 to R112). `free` is the unconstrained byte that a shift
by 8 or more gives. Shr is logical. -/
def bitResult (op : BitOp) (a b free : Byte) : Byte :=
  match op with
  | .or => a ||| b
  | .and => a &&& b
  | .not => ~~~a
  | .shl => if b.toNat ≤ 7 then a <<< b.toNat else free
  | .shr => if b.toNat ≤ 7 then a >>> b.toNat else free

/-- The ALU as one function. `old` are the flags before the call, which a bitwise operation leaves as they are
(40_alu_unit.md R115); `n` selects the free values of this call (assumptions 4 and 5). -/
def alu (cfg : Config) (op : AluOp) (a b : Byte) (old : Flags) (n : Nat) : AluOut :=
  match op with
  | .arith op =>
    { result := arithResult op (arithWide op a b)
      flags := flagsOf cfg (arithWide op a b) (Config.draw n) (Config.draw (n + 1)) }
  | .bits op => { result := bitResult op a b (Config.drawByte n), flags := old }

/-- An arithmetic operation of the ALU in a state: its draws are the next ones of the state's counter. -/
def runAlu (op : ArithOp) (a b : Byte) (s : State) : AluOut := alu s.env.cfg (.arith op) a b s.flags s.env.draws

/-- "Then refresh flags": all five flags are replaced (10_state.md R28), and the two bits drawn for E and L are used up. -/
def refreshFlags (f : Flags) (s : State) : State := (s.setFlags f).setDraws (s.env.draws + 2)

end Sys2Proof.Machine
end

