-- ==== Sys2Proof/Machine/Arithmetic.lean ====
section
/-! DEFINITION. ADD, SUB, INC, DEC and CMP (45_arithmetic.md). -/

namespace Sys2Proof.Machine

/-- ADD: register B receives A + B mod 256 (45_arithmetic.md R165). -/
def execAdd (a b : Reg) (s : State) : Host.Outcome State Fault Refusal :=
  let out := runAlu .add (readReg a s) (readReg b s) s
  .next (fallThrough 1 (refreshFlags out.flags (writeReg b out.result s)))

/-- SUB: register B receives A - B clamped at zero; the flags are those of the unclamped difference
(45_arithmetic.md R166). -/
def execSub (a b : Reg) (s : State) : Host.Outcome State Fault Refusal :=
  let out := runAlu .subtract (readReg a s) (readReg b s) s
  .next (fallThrough 1 (refreshFlags out.flags (writeReg b out.result s)))

/-- INC: register A receives A + 1 mod 256 (45_arithmetic.md R167). -/
def execInc (a : Reg) (s : State) : Host.Outcome State Fault Refusal :=
  let out := runAlu .increment (readReg a s) 0#8 s
  .next (fallThrough 1 (refreshFlags out.flags (writeReg a out.result s)))

/-- DEC: register A receives A - 1 clamped at zero; the flags are those of the unclamped difference
(45_arithmetic.md R168). -/
def execDec (a : Reg) (s : State) : Host.Outcome State Fault Refusal :=
  let out := runAlu .decrement (readReg a s) 0#8 s
  .next (fallThrough 1 (refreshFlags out.flags (writeReg a out.result s)))

/-- CMP: the flags of A - B; no register is written (45_arithmetic.md R169). -/
def execCmp (a b : Reg) (s : State) : Host.Outcome State Fault Refusal :=
  let out := runAlu .compare (readReg a s) (readReg b s) s
  .next (fallThrough 1 (refreshFlags out.flags s))

end Sys2Proof.Machine
end

