-- ==== Sys2Proof/Machine/Operands.lean ====
section
/-! DEFINITION. The operand forms: register (Sys2Proof.Machine.readReg), the operand byte in the instruction stream,
register-indirect through MAR, program-relative jump targets, and the two ends of the stack. -/

namespace Sys2Proof.Machine

/-- The operand byte of a 2-byte instruction: the byte at MAR, where the operand fetch left it (41_cycle.md R124). -/
def operandByte (s : State) : Byte := memRead s.mem s.mar

/-- Register-indirect load (42_data_move.md R136): MAR is redirected to the address in register `a`, register `b`
receives the byte there, and MAR is restored. -/
def loadIndirect (a b : Reg) (s : State) : State :=
  let saved := s.mar
  let s1 := s.setMar (readReg a s)
  let s2 := writeReg b (memRead s1.mem s1.mar) s1
  s2.setMar saved

/-- Register-indirect store (42_data_move.md R137): MAR is redirected to the address in register `a`, register `b` is
stored there, and MAR is restored. -/
def storeIndirect (a b : Reg) (s : State) : State :=
  let saved := s.mar
  let s1 := s.setMar (readReg a s)
  let s2 := storeByte s1.mar (readReg b s1) s1
  s2.setMar saved

/-- The target of JMP and JMPIF: `(PROG_BASE + imm) mod 256` (43_control_transfer.md R145). -/
def programTarget (cfg : Config) (imm : Byte) : Byte := cfg.progBase + imm

/-- `STACK_TOP`, the last address of the stack region: the top of the address space (00_scope.md R4). -/
def stackTop : Byte := 0xFF#8

/-- The store of PUSH (46_stack.md R180): the byte goes to SP, and then SP moves up by one. It is used only below
`STACK_TOP`, so SP does not wrap. -/
def pushByte (v : Byte) (s : State) : State := (storeByte s.sp v s).setSp (s.sp + 1#8)

/-- The address POP loads from: SP moved down by one, mod 256 (46_stack.md R181, 90_conflicts.md C3). -/
def popAddress (s : State) : Byte := s.sp - 1#8

end Sys2Proof.Machine
end

