-- ==== Sys2Proof/Machine/ControlTransfer.lean ====
section
/-! DEFINITION. JMP, JMPR and JMPIF (43_control_transfer.md). -/

namespace Sys2Proof.Machine

/-- JMP: unconditional jump to an offset in the program region (43_control_transfer.md R145). -/
def execJmp (imm : Byte) (s : State) : Host.Outcome State Fault Refusal :=
  .next (jumpTo (programTarget s.env.cfg imm) s)

/-- JMPR: jump to the absolute address in a register; PROG_BASE is not added (43_control_transfer.md R146). -/
def execJmpr (a : Reg) (s : State) : Host.Outcome State Fault Refusal :=
  .next (jumpTo (readReg a s) s)

/-- JMPIF: conditional jump; a reserved selector never branches and is no error (43_control_transfer.md R147). -/
def execJmpif (cond : BitVec 4) (imm : Byte) (s : State) : Host.Outcome State Fault Refusal :=
  if matchFlags s.env.cfg s.flags cond then .next (jumpTo (programTarget s.env.cfg imm) s)
  else .next (fallThrough 2 s)

end Sys2Proof.Machine
end

