-- ==== Sys2Proof/Machine/DataMove.lean ====
section
/-! DEFINITION. DATA, LD and ST (42_data_move.md). -/

namespace Sys2Proof.Machine

/-- DATA: load immediate (42_data_move.md R135). The operand byte was fetched before (41_cycle.md R124). -/
def execData (a : Reg) (imm : Byte) (s : State) : Host.Outcome State Fault Refusal :=
  .next (fallThrough 2 (writeReg a imm s))

/-- LD: load a byte, register indirect (42_data_move.md R136). -/
def execLd (a b : Reg) (s : State) : Host.Outcome State Fault Refusal :=
  .next (fallThrough 1 (loadIndirect a b s))

/-- ST: store a byte, register indirect (42_data_move.md R137). -/
def execSt (a b : Reg) (s : State) : Host.Outcome State Fault Refusal :=
  .next (fallThrough 1 (storeIndirect a b s))

end Sys2Proof.Machine
end

