-- ==== Sys2Proof/Machine/Stack.lean ====
section
/-! DEFINITION. PUSH and POP (46_stack.md). Neither writes a flag, and neither access goes through MAR (decision D7). -/

namespace Sys2Proof.Machine

/-- PUSH: StackOverflow when SP = 0xFF, before anything is written; else the register goes to SP and SP moves up
(46_stack.md R180, 60_exceptions.md R192). -/
def execPush (a : Reg) (s : State) : Host.Outcome State Fault Refusal :=
  if s.sp = stackTop then .next (raiseFault .stackOverflow s)
  else .next (fallThrough 1 (pushByte (readReg a s) s))

/-- POP: SP moves down first, and the load uses the new SP (46_stack.md R181). -/
def execPop (a : Reg) (s : State) : Host.Outcome State Fault Refusal :=
  let s1 := s.setSp (popAddress s)
  .next (fallThrough 1 (writeReg a (memRead s1.mem s1.sp) s1))

end Sys2Proof.Machine
end

