-- ==== Sys2Proof/Machine/System.lean ====
section
/-! DEFINITION. INT, HLT and CLI (44_system.md). -/

namespace Sys2Proof.Machine

/-- INT: request a peripheral service; nothing is served before a tick (44_system.md R156). -/
def execInt (imm : Byte) (s : State) : Host.Outcome State Fault Refusal :=
  .next (fallThrough 2 (s.setInt imm))

/-- HLT: halt; IAR advances past it (44_system.md R155). -/
def execHlt (s : State) : Host.Outcome State Fault Refusal :=
  .next (fallThrough 1 (s.setHalted true))

/-- CLI: mark the acknowledgement that the next tick performs; INT keeps its value till then (44_system.md R157). -/
def execCli (s : State) : Host.Outcome State Fault Refusal :=
  .next (fallThrough 1 (s.setIack true))

end Sys2Proof.Machine
end

