-- ==== Sys2Proof/Machine/Dispatch.lean ====
section
/-! DEFINITION. The execute part of a step (41_cycle.md R123): one arm per instruction, one call of its meaning. -/

namespace Sys2Proof.Machine

def exec (i : Instr) (s : State) : Host.Outcome State Fault Refusal :=
  match i with
  | .data a imm => Sys2Proof.Machine.execData a imm s
  | .ld a b => Sys2Proof.Machine.execLd a b s
  | .st a b => Sys2Proof.Machine.execSt a b s
  | .jmp imm => Sys2Proof.Machine.execJmp imm s
  | .jmpr a => Sys2Proof.Machine.execJmpr a s
  | .jmpif cond imm => Sys2Proof.Machine.execJmpif cond imm s
  | .int imm => Sys2Proof.Machine.execInt imm s
  | .hlt => Sys2Proof.Machine.execHlt s
  | .cli => Sys2Proof.Machine.execCli s
  | .add a b => Sys2Proof.Machine.execAdd a b s
  | .sub a b => Sys2Proof.Machine.execSub a b s
  | .inc a => Sys2Proof.Machine.execInc a s
  | .dec a => Sys2Proof.Machine.execDec a s
  | .cmp a b => Sys2Proof.Machine.execCmp a b s
  | .push a => Sys2Proof.Machine.execPush a s
  | .pop a => Sys2Proof.Machine.execPop a s

end Sys2Proof.Machine
end

