-- ==== Sys2Proof/Machine/Cycle.lean ====
section
/-! DEFINITION. The CPU's step: what one call of `cycle()` does around the instruction (41_cycle.md). -/

namespace Sys2Proof.Machine

/-- Fetch (41_cycle.md R121): `MAR <- IAR ; IR <- MemRead(MAR, 1)`. -/
def fetch (s : State) : State :=
  let s1 := s.setMar s.iar
  s1.setIr (memRead s1.mem s1.mar)

/-- Operand fetch (41_cycle.md R124): MAR moves to the operand byte, `(MAR + 1) mod 256`, for 2-byte rows only. -/
def operandFetch (op : Op) (s : State) : State := if opLength op = 2 then s.setMar (s.mar + 1#8) else s

/-- What `cycle()` returns after an instruction that was executed (41_cycle.md R126): an error when it faulted, else
true, and false exactly for HLT. -/
def cycleReply (i : Instr) (s : State) : Reply :=
  match s.fault with
  | some f => .error f
  | none => .running (decide (i ≠ .hlt))

/-- The end of a call of `cycle()`: the outcome of the instruction, with the return value recorded. -/
def finishCycle (i : Instr) (o : Host.Outcome State Fault Refusal) : Host.Outcome State Fault Refusal :=
  match o with
  | .next t => .next (t.setReply (cycleReply i t))
  | .fault f => .fault f
  | .refused r => .refused r

/-- UnknownOpcode (41_cycle.md R122, 60_exceptions.md R191): FAULT is set, MAR and IR stay as fetched, nothing else
changes; `cycle()` returns the error. -/
def unknownOpcode (s : State) : State :=
  let t := raiseFault .unknownOpcode s
  t.setReply (.error { kind := .unknownOpcode, iar := s.iar })

/-- The CPU step in a state that has one: fetch, decode, operand fetch, execute, IAR update (41_cycle.md R128). -/
def runInstruction (s : State) : Host.Outcome State Fault Refusal :=
  let s1 := fetch s
  match decodeOp s1.env.cfg.opc s1.ir with
  | .error _ => .next (unknownOpcode s1)
  | .ok op =>
    let s2 := operandFetch op s1
    let i := instrOf op s2.ir (operandByte s2)
    finishCycle i (exec i s2)

/-- One call of `cycle()` (41_cycle.md R120, R127, R128). There is no step while FAULT is not none or HALTED = 1. A machine
that was never booted has a step too, from address 0x00: DESIGN CHOICE, the spec defines no run of it (assumption 29). -/
def cycle (s : State) : Host.Outcome State Fault Refusal :=
  match s.fault with
  | some f => .fault (.faultLatched f)
  | none => if s.halted then .fault .halted else runInstruction s

end Sys2Proof.Machine
end

