-- ==== Sys2Proof/Machine/Peripherals.lean ====
section
/-! DEFINITION. The peripherals and the tick (60_exceptions.md R198 to R209, R216). -/

namespace Sys2Proof.Machine

/-- Keyboard delivery (60_exceptions.md R202): the byte goes to the tail; a full buffer drops it. -/
def keyboardUpdate (v : Byte) (s : State) : State :=
  if s.kbuf.length < s.env.cfg.kbdMax then s.setKbuf (s.kbuf ++ [v]) else s

/-- `pass_to_peripheral(id, value)` (60_exceptions.md R202, R205): a delivery to the screen does nothing. It is enabled
in every state, as R202 says, a faulted one too, where decision D23 says none (assumption 28), and returns nothing. -/
def deliver (p : Peripheral) (v : Byte) (s : State) : State :=
  match p with
  | .keyboard => (keyboardUpdate v s).setReply .nothing
  | .screen => s.setReply .nothing

/-- A blank screen: every pixel 0x00. -/
def blankScreen (cfg : Config) : List Byte := List.replicate cfg.pixels 0#8

/-- The acknowledgement service (60_exceptions.md R201, R205, R206; decision D17): both peripherals return to their
defaults, IACK is cleared, and INT is zeroed when ACK_CLEARS_INT. -/
def acknowledge (s : State) : State :=
  let s1 := ((s.setKbuf []).setPix (blankScreen s.env.cfg)).setIack false
  if s.env.cfg.ackClearsInt then s1.setInt 0#8 else s1

/-- The pixel the screen service writes: `x + SCREEN_W * y`, a natural number, not wrapped (60_exceptions.md R204). -/
def pixelIndex (s : State) : Nat :=
  (readReg s.env.cfg.scrXReg s).toNat + s.env.cfg.screenW * (readReg s.env.cfg.scrYReg s).toNat

/-- The screen service (60_exceptions.md R204); an index outside the buffer is a fault that leaves PIX as it was (R216). -/
def screenProcess (s : State) : State :=
  if s.int = s.env.cfg.intScreen then
    if s.env.cfg.pixels ≤ pixelIndex s then raiseFault .screenIndexOutOfRange s
    else s.setPix (s.pix.set (pixelIndex s) (readReg s.env.cfg.scrColorReg s))
  else s

/-- The keyboard service (60_exceptions.md R203): the buffered bytes go to memory from KBD_BASE up, oldest lowest; the
base address and the count go to two registers; the buffer is emptied. -/
def keyboardProcess (s : State) : State :=
  if s.int = s.env.cfg.intKeyboard ∧ 0 < s.kbuf.length then
    let n := s.kbuf.length
    let s1 := s.setMem (memWriteAll s.mem s.env.cfg.kbdBase s.kbuf)
    let s2 := writeReg s.env.cfg.kbdAddrReg s.env.cfg.kbdBase s1
    let s3 := writeReg s.env.cfg.kbdCountReg (BitVec.ofNat 8 n) s2
    s3.setKbuf []
  else s

/-- The services of a tick in order (60_exceptions.md R200): acknowledgement, screen, keyboard; a fault of the screen
service ends the tick before the keyboard service (R216). -/
def serviceAll (s : State) : State :=
  let s1 := if s.iack then acknowledge s else s
  let s2 := screenProcess s1
  if s2.fault.isSome then s2 else keyboardProcess s2

/-- What an entry point other than `cycle()` returns (60_exceptions.md R194, R215): ok, or the fault it raised. -/
def callReply (f : Option FaultRecord) : Reply :=
  match f with
  | some f => .error f
  | none => .ok

/-- One call of `process_peripherals()` (60_exceptions.md R200): enabled whenever FAULT = none, also when HALTED. -/
def tick (s : State) : Host.Outcome State Fault Refusal :=
  match s.fault with
  | some f => .fault (.faultLatched f)
  | none =>
    let t := serviceAll s
    .next (t.setReply (callReply t.fault))

end Sys2Proof.Machine
end

