-- ==== Sys2Proof/Machine/HostCalls.lean ====
section
/-! DEFINITION. Boot, reset, the snapshot, and one call of any entry point (70_reset_and_hazards.md R240 to R242,
60_exceptions.md R213, R215). -/

namespace Sys2Proof.Machine

/-- The image copied into the program region, MAR and IAR at its base: a boot that fits
(70_reset_and_hazards.md R241). -/
def loadImage (img : List Byte) (s : State) : State :=
  ((s.setMem (memWriteAll s.mem s.env.cfg.progBase img)).setMar s.env.cfg.progBase).setIar s.env.cfg.progBase

/-- `boot(img)` (70_reset_and_hazards.md R241, 60_exceptions.md R193): an image longer than PROG_CAP raises
ImageTooLarge and nothing of it is copied. The image is remembered for the next reset (assumption 10), and the reply
recorded. -/
def boot (img : List Byte) (s : State) : State :=
  let s1 := s.setImage img
  if s.env.cfg.progCap < img.length then
    (raiseFault .imageTooLarge s1).setReply (.error { kind := .imageTooLarge, iar := s.iar })
  else (loadImage img s1).setReply .ok

/-- What `reset()` does before it boots (70_reset_and_hazards.md R240): every register, flag, latch, byte of memory and
peripheral at its reset value; IAR and MAR are left to boot. -/
def clearMachine (s : State) : State where
  regs := ⟨0#8, 0#8, 0#8, 0#8⟩
  iar := s.iar
  mar := s.mar
  ir := 0#8
  out := 0#8
  sp := s.env.cfg.stackBase
  int := 0#8
  flags := ⟨false, false, false, false, false⟩
  iack := false
  halted := false
  fault := none
  mem := []
  kbuf := []
  pix := blankScreen s.env.cfg
  env := s.env

/-- `reset()` (70_reset_and_hazards.md R240): enabled in every state; the image of the most recent boot is booted
again. -/
def resetMachine (s : State) : State := boot s.env.image (clearMachine s)

/-- One call of an entry point (60_exceptions.md R215). A delivery is carried out in a faulted state too: R202 says so,
decision D23 says otherwise (assumption 28). -/
def hostCall (c : HostCall) (s : State) : Host.Outcome State Fault Refusal :=
  match c with
  | .cycle => cycle s
  | .tick => tick s
  | .deliver p v => .next (deliver p v s)
  | .boot img => .next (boot img s)
  | .reset => .next (resetMachine s)

/-- The host's next call, and the calls after it: when none is pending the host calls `cycle()` (assumption 1). -/
def nextCall : List HostCall → HostCall × List HostCall
  | [] => (.cycle, [])
  | c :: rest => (c, rest)

/-- What the host's query accessors show (60_exceptions.md R213, 10_state.md R37): the registers, the special registers,
the flags byte and all of memory. -/
structure Snapshot where
  regs : Regs
  iar : Byte
  mar : Byte
  ir : Byte
  out : Byte
  sp : Byte
  int : Byte
  flags : Byte
  mem : List Byte
deriving DecidableEq, Repr

/-- The snapshot of a state; taking it changes nothing (60_exceptions.md R213). -/
def snapshot (s : State) : Snapshot where
  regs := s.regs
  iar := s.iar
  mar := s.mar
  ir := s.ir
  out := s.out
  sp := s.sp
  int := s.int
  flags := flagsByte s.env.cfg s.flags
  mem := (List.range 256).map fun a => memRead s.mem (BitVec.ofNat 8 a)

/-- An instruction's bytes placed where the next step fetches it, and the host about to call `cycle()` in a state that
has a step. -/
def placeInstruction (nbits w : Nat) (s : State) : State :=
  let bytes := tableBytes nbits w
  let s1 := storeByte s.iar bytes.1 s
  let s2 := storeByte (s.iar + 1#8) bytes.2 s1
  ((s2.setHalted false).setFault none).setCalls (.cycle :: s.env.calls)

end Sys2Proof.Machine
end

