-- ==== Sys2Proof/Machine/Step.lean ====
section
/-! DEFINITION. One step of the whole machine: the host's next call, carried out. -/

namespace Sys2Proof.Machine

/-- One transition (60_exceptions.md R208): the next pending host call is taken off the list and carried out; with none
pending the host calls `cycle()`, so that the CPU runs on (assumption 1). -/
def step (s : State) : Host.Outcome State Fault Refusal :=
  hostCall (nextCall s.env.calls).1 (s.setCalls (nextCall s.env.calls).2)

/-- The state with an instruction, its bits numbered as spec/opcode_table.json numbers them, stored where the next step
fetches, and the host's next call `cycle()` (assumption 9). -/
def State.withFetchWord (s : State) (nbits w : Nat) : State := placeInstruction nbits w s

end Sys2Proof.Machine
end

