-- ==== Sys2Proof/Machine/Assembly.lean ====
section
/-! DEFINITION. The part of the assembler that 00_scope.md R3 keeps for a reader of programs: operands, labels, branch
destinations and the image (30_encoding.md R83 to R89), over lines that are already tokenised. No machine step uses it. -/

namespace Sys2Proof.Machine

/-- An operand as written (30_encoding.md R83, R84). -/
inductive SrcOperand
  /-- `R<n>` -/
  | reg (n : Nat)
  /-- a number, decimal or hexadecimal -/
  | num (v : Nat)
  /-- `$name` -/
  | label (name : String)
deriving DecidableEq, Repr

/-- A mnemonic as written; JMPIF carries its flag suffix (30_encoding.md R85). -/
inductive SrcMnemonic
  | plain (op : Op)
  | jmpif (suffix : String)
deriving DecidableEq, Repr

/-- A line: a label, which occupies no memory, or an instruction (30_encoding.md R83, R86). -/
inductive SrcLine
  | label (name : String)
  | instr (m : SrcMnemonic) (operands : List SrcOperand)
deriving DecidableEq, Repr

/-- Why text is not assembled (30_encoding.md R89); UnknownMnemonic belongs to the tokeniser, which is out of scope (R3). -/
inductive AsmError
  /-- a wrong number of operands (assumption 22) -/
  | syntaxError
  | unknownRegister
  | unknownConditionFlag
  /-- a number that is no byte, or a label offset that is none (assumption 22) -/
  | valueOutOfRange
  | undefinedLabel
  /-- two labels of one name, which the spec leaves open (assumption 22) -/
  | duplicateLabel
  /-- an operand of the wrong kind -/
  | typeError
  /-- `CMP Ra, imm`, which is no part of the ISA and which a model refuses by name (30_encoding.md R87, decision D24) -/
  | cmpImmediate
deriving DecidableEq, Repr

/-- The address labels: each name with its byte offset from the start of the image. -/
abbrev LabelTable := List (String × Nat)

/-- A register operand (30_encoding.md R83): R1 to R4. -/
def asmReg : SrcOperand → Except AsmError Reg
  | .reg 1 => .ok .r1
  | .reg 2 => .ok .r2
  | .reg 3 => .ok .r3
  | .reg 4 => .ok .r4
  | .reg _ => .error .unknownRegister
  | .num _ => .error .typeError
  | .label _ => .error .typeError

/-- A number that fits a byte (30_encoding.md R83). -/
def asmByte (v : Nat) : Except AsmError Byte :=
  if v < 256 then .ok (BitVec.ofNat 8 v) else .error .valueOutOfRange

/-- An immediate operand: a number (30_encoding.md R84). -/
def asmNum : SrcOperand → Except AsmError Byte
  | .num v => asmByte v
  | .reg _ => .error .typeError
  | .label _ => .error .typeError

/-- The offset of a label. -/
def findLabel : LabelTable → String → Option Nat
  | [], _ => none
  | (n, off) :: rest, name => if n = name then some off else findLabel rest name

/-- A branch destination: a label's offset, or the number itself (30_encoding.md R86). It is no absolute address. -/
def asmDest (t : LabelTable) : SrcOperand → Except AsmError Byte
  | .num v => asmByte v
  | .label name =>
    match findLabel t name with
    | some off => asmByte off
    | none => .error .undefinedLabel
  | .reg _ => .error .typeError

/-- The selector of a flag suffix: `Z` and `C` (30_encoding.md R85); the spellings of the other 14 are not in the spec.
DESIGN CHOICE: only the capital letters are accepted, since R83 calls mnemonics case-insensitive and the spec does not say
so of suffixes (assumption 30). -/
def asmCond (cfg : Config) (suffix : String) : Except AsmError (BitVec 4) :=
  if suffix = "Z" then .ok cfg.condZ
  else if suffix = "C" then .ok cfg.condC
  else .error .unknownConditionFlag

/-- The instruction with two register operands, left in A and right in B (30_encoding.md R76, R84). -/
def asmTwo (mk : Reg → Reg → Instr) : List SrcOperand → Except AsmError Instr
  | [x, y] => do return mk (← asmReg x) (← asmReg y)
  | _ => .error .syntaxError

/-- The instruction with one register operand, in A (30_encoding.md R76, R84). -/
def asmOne (mk : Reg → Instr) : List SrcOperand → Except AsmError Instr
  | [x] => do return mk (← asmReg x)
  | _ => .error .syntaxError

/-- The instruction with no operand. -/
def asmNone (i : Instr) : List SrcOperand → Except AsmError Instr
  | [] => .ok i
  | _ => .error .syntaxError

/-- One instruction line, with the labels known (30_encoding.md R84 to R87). -/
def asmInstr (cfg : Config) (t : LabelTable) (m : SrcMnemonic) (ops : List SrcOperand) : Except AsmError Instr :=
  match m with
  | .jmpif suffix =>
    match ops with
    | [x] => do return .jmpif (← asmCond cfg suffix) (← asmDest t x)
    | _ => .error .syntaxError
  | .plain .jmpif => .error .unknownConditionFlag
  | .plain .data =>
    match ops with
    | [x, y] => do return .data (← asmReg x) (← asmNum y)
    | _ => .error .syntaxError
  | .plain .ld => asmTwo .ld ops
  | .plain .st => asmTwo .st ops
  | .plain .jmp =>
    match ops with
    | [x] => do return .jmp (← asmDest t x)
    | _ => .error .syntaxError
  | .plain .jmpr => asmOne .jmpr ops
  | .plain .int =>
    match ops with
    | [x] => do return .int (← asmNum x)
    | _ => .error .syntaxError
  | .plain .hlt => asmNone .hlt ops
  | .plain .cli => asmNone .cli ops
  | .plain .add => asmTwo .add ops
  | .plain .sub => asmTwo .sub ops
  | .plain .inc => asmOne .inc ops
  | .plain .dec => asmOne .dec ops
  | .plain .cmp =>
    match ops with
    | [_, .num _] => .error .cmpImmediate
    | _ => asmTwo .cmp ops
  | .plain .push => asmOne .push ops
  | .plain .pop => asmOne .pop ops

/-- The encoded size of a line (30_encoding.md R84, R86): labels take no byte. -/
def lineSize : SrcLine → Nat
  | .label _ => 0
  | .instr (.jmpif _) _ => 2
  | .instr (.plain op) _ => opLength op

/-- The labels of the lines, the first line at byte offset `at_` (30_encoding.md R86). -/
def collectLabels (at_ : Nat) : List SrcLine → Except AsmError LabelTable
  | [] => .ok []
  | .label name :: rest => do
    let t ← collectLabels at_ rest
    match findLabel t name with
    | some _ => .error .duplicateLabel
    | none => return (name, at_) :: t
  | .instr m ops :: rest => collectLabels (at_ + lineSize (.instr m ops)) rest

/-- The bytes of the lines in program order (30_encoding.md R88). -/
def emitLines (cfg : Config) (t : LabelTable) : List SrcLine → Except AsmError (List Byte)
  | [] => .ok []
  | .label _ :: rest => emitLines cfg t rest
  | .instr m ops :: rest => do
    let i ← asmInstr cfg t m ops
    let bytes ← emitLines cfg t rest
    return encode cfg.opc i ++ bytes

/-- The image of a program, or the first error: no partial image (30_encoding.md R88, R89). -/
def assemble (cfg : Config) (lines : List SrcLine) : Except AsmError (List Byte) := do
  let t ← collectLabels 0 lines
  emitLines cfg t lines

end Sys2Proof.Machine
end

