-- ==== Sys2Proof/WellFormed.lean ====
section
/-! DEFINITION. What is well formed. An instruction term is well formed by its type: register fields are registers, the
selector has four bits, an immediate is a byte, and every such term has an encoding (30_encoding.md R71, R76 to R78).
What has to be checked is the configuration: the constraints that 00_scope.md R4 puts on every one, and that the opcode
numbers tell the rows apart. The operands of assembly text are checked where it is assembled
(Sys2Proof/Machine/Assembly.lean). -/

namespace Sys2Proof

/-! ### Opcode numbers tell the rows apart (30_encoding.md R73 to R75) -/

/-- The eight control-class numbers are pairwise distinct. -/
def OpcodeMap.controlDistinct (m : OpcodeMap) : Bool :=
  decide ([m.data, m.ld, m.st, m.jmp, m.jmpr, m.jmpif, m.int, m.sys].Nodup)

/-- HLT and CLI have different SYS sub-functions. -/
def OpcodeMap.sysDistinct (m : OpcodeMap) : Bool := decide (m.hlt ≠ m.cli)

/-- The seven ALU-class numbers are pairwise distinct. -/
def OpcodeMap.aluDistinct (m : OpcodeMap) : Bool :=
  decide ([m.add, m.sub, m.inc, m.dec, m.cmp, m.push, m.pop].Nodup)

/-- An opcode map in which every row has a number of its own. -/
def OpcodeMap.wf (m : OpcodeMap) : Bool := m.controlDistinct && m.sysDistinct && m.aluDistinct

/-! ### The constraints of 00_scope.md R4, one check each -/

/-- `KBD_BASE + KBD_MAX <= PROG_BASE`. -/
def Config.keyboardFits (cfg : Config) : Bool := decide (cfg.kbdBase.toNat + cfg.kbdMax ≤ cfg.progBase.toNat)

/-- `SCREEN_BASE + SCREEN_W * SCREEN_H <= PROG_BASE`. It keeps both sizes below 256 unless one of them is 0 (assumption
31). -/
def Config.screenFits (cfg : Config) : Bool := decide (cfg.screenBase.toNat + cfg.pixels ≤ cfg.progBase.toNat)

/-- The keyboard buffer and the screen pixel range do not overlap: one ends before the other begins. DESIGN CHOICE: R4 does
not say whether an empty pixel range (SCREEN_W * SCREEN_H = 0) can overlap; here it counts as overlapping when SCREEN_BASE
lies strictly inside the keyboard buffer (assumption 26). -/
def Config.buffersApart (cfg : Config) : Bool :=
  decide (cfg.kbdBase.toNat + cfg.kbdMax ≤ cfg.screenBase.toNat ∨
    cfg.screenBase.toNat + cfg.pixels ≤ cfg.kbdBase.toNat)

/-- `PROG_CAP >= 1`. -/
def Config.programRoom (cfg : Config) : Bool := decide (1 ≤ cfg.progCap)

/-- `STACK_BASE = PROG_BASE + PROG_CAP <= 0xFF`. -/
def Config.stackFits (cfg : Config) : Bool := decide (cfg.progBase.toNat + cfg.progCap ≤ 0xFF)

/-- `COND_C != COND_Z`; both are in 0..15 by their type. -/
def Config.selectorsApart (cfg : Config) : Bool := decide (cfg.condC ≠ cfg.condZ)

/-- `CARRY_LO <= 0 <= CARRY_HI`. -/
def Config.carryAroundZero (cfg : Config) : Bool := decide (cfg.carryLo ≤ 0 ∧ 0 ≤ cfg.carryHi)

/-- The three screen registers are pairwise distinct. -/
def Config.screenRegsApart (cfg : Config) : Bool :=
  decide (cfg.scrXReg ≠ cfg.scrYReg ∧ cfg.scrXReg ≠ cfg.scrColorReg ∧ cfg.scrYReg ≠ cfg.scrColorReg)

/-- The two keyboard registers are distinct. -/
def Config.keyboardRegsApart (cfg : Config) : Bool := decide (cfg.kbdAddrReg ≠ cfg.kbdCountReg)

/-- The five flag bit positions are pairwise distinct; each is in 0..7 by its type. -/
def Config.flagBitsApart (cfg : Config) : Bool :=
  decide ([cfg.flagBitC, cfg.flagBitS, cfg.flagBitZ, cfg.flagBitE, cfg.flagBitL].Nodup)

/-- The values the source fixes: ten key codes, interrupt code 1 for the screen, 2 for the keyboard (R4, first table). -/
def Config.sourceValues (cfg : Config) : Bool :=
  decide (cfg.kbdMax = 10 ∧ cfg.intScreen = 1#8 ∧ cfg.intKeyboard = 2#8)

/-- The configurations R4 admits. -/
def Config.wf (cfg : Config) : Bool :=
  cfg.opc.wf && cfg.keyboardFits && cfg.screenFits && cfg.buffersApart && cfg.programRoom && cfg.stackFits &&
  cfg.selectorsApart && cfg.carryAroundZero && cfg.screenRegsApart && cfg.keyboardRegsApart && cfg.flagBitsApart &&
  cfg.sourceValues

end Sys2Proof
end

