-- ==== Sys2Proof/Safety.lean ====
section
/-! DEFINITION. What the claims are stated in: a state that is in order, a state in which the CPU has a step, the two
ways a run ends, and names for what a step is about to do. -/

namespace Sys2Proof.Machine

/-- A state in order: the configuration is one R4 admits, memory is in its canonical form, the keyboard holds at most
KBD_MAX bytes (10_state.md R33), and the screen holds one byte for each pixel (10_state.md R34). -/
def State.wf (s : State) : Bool :=
  s.env.cfg.wf && s.mem.wf && decide (s.kbuf.length ≤ s.env.cfg.kbdMax) && decide (s.pix.length = s.env.cfg.pixels)

/-- The CPU has a step (41_cycle.md R120): `HALTED = 0` and `FAULT = none`. -/
def State.canStep (s : State) : Prop := s.halted = false ∧ s.fault = none

/-- The end of a successful run (60_exceptions.md R214): `HALTED = 1` with `FAULT = none`. -/
def State.succeeded (s : State) : Prop := s.halted = true ∧ s.fault = none

/-- A failed ending (60_exceptions.md R194): a fault is latched. -/
def State.failed (s : State) : Prop := s.fault ≠ none

/-- The state in which an instruction of the row `op` is executed: fetched, and its operand fetched (41_cycle.md R121,
R124). -/
def State.fetched (s : State) (op : Op) : State := operandFetch op (fetch s)

/-- The two bytes from IAR up, where the next instruction stands (20_memory.md R57). -/
def State.nextBytes (s : State) : List Byte := [memRead s.mem s.iar, memRead s.mem (s.iar + 1#8)]

/-- The host's next call is `c`. -/
def State.nextIs (s : State) (c : HostCall) : Prop := (nextCall s.env.calls).1 = c

/-- The next step executes the instruction `i`: the host's next call is `cycle()` and `i` stands at IAR. -/
def State.runs (s : State) (i : Instr) : Prop :=
  s.nextIs .cycle ∧ ∃ rest, decode s.env.cfg.opc s.nextBytes = .ok (i, rest)

/-- Where an instruction jumps to, if it jumps (41_cycle.md R125): JMP and JMPR always, JMPIF when its condition holds. -/
def jumpTarget (i : Instr) (s : State) : Option Byte :=
  match i with
  | .jmp imm => some (s.env.cfg.progBase + imm)
  | .jmpr a => some (readReg a s)
  | .jmpif cond imm => if matchFlags s.env.cfg s.flags cond then some (s.env.cfg.progBase + imm) else none
  | .data _ _ | .ld _ _ | .st _ _ | .int _ | .hlt | .cli | .add _ _ | .sub _ _ | .inc _ | .dec _ | .cmp _ _
  | .push _ | .pop _ => none

/-- The register an instruction writes, if it writes one (10_state.md R20). -/
def destination : Instr → Option Reg
  | .data a _ => some a
  | .ld _ b => some b
  | .add _ b => some b
  | .sub _ b => some b
  | .inc a => some a
  | .dec a => some a
  | .pop a => some a
  | .st _ _ | .jmp _ | .jmpr _ | .jmpif _ _ | .int _ | .hlt | .cli | .cmp _ _ | .push _ => none

/-- Two states agree on all that no data move, jump, arithmetic or stack instruction writes: MAR, IR, OUT, INT, IACK,
HALTED, FAULT, the peripherals, and the parameters of the step relation. -/
def State.sameRest (s t : State) : Prop :=
  t.mar = s.mar ∧ t.ir = s.ir ∧ t.out = s.out ∧ t.int = s.int ∧ t.iack = s.iack ∧ t.halted = s.halted ∧
  t.fault = s.fault ∧ t.kbuf = s.kbuf ∧ t.pix = s.pix ∧ t.env.cfg = s.env.cfg ∧ t.env.image = s.env.image ∧
  t.env.calls = s.env.calls ∧ t.env.reply = s.env.reply

/-- The flags C, S and Z of a state are those of a wide result `w` (40_alu_unit.md R102); nothing is said of E and L, which
are free (R114). -/
def State.flagsFollow (t : State) (cfg : Config) (w : Int) : Prop :=
  (t.flags.c = true ↔ w < cfg.carryLo ∨ cfg.carryHi < w) ∧ (t.flags.s = true ↔ w < 0) ∧
  (t.flags.z = true ↔ if cfg.zeroAfterWrap then w % 256 = 0 else w = 0)

/-- Instructions executed one after another, each in the state the one before it left. -/
def execAll : List Instr → State → Host.Outcome State Fault Refusal
  | [], s => .next s
  | i :: rest, s =>
    match exec i s with
    | .next t => execAll rest t
    | .fault f => .fault f
    | .refused r => .refused r

/-- Memory after a sequence of stores, the first one first. -/
def storesDone (m : Memory) : List (Byte × Byte) → Memory
  | [] => m
  | (a, v) :: rest => storesDone (memWrite m a v) rest

/-- The byte that the last of a sequence of stores put at an address, if one did. -/
def lastStored (a : Byte) : List (Byte × Byte) → Option Byte
  | [] => none
  | (b, v) :: rest =>
    match lastStored a rest with
    | some w => some w
    | none => if b = a then some v else none

/-- The number of bytes that assembly lines take (30_encoding.md R84, R88). -/
def linesSize : List SrcLine → Nat
  | [] => 0
  | l :: rest => lineSize l + linesSize rest

end Sys2Proof.Machine
end

