-- ==== Sys2Proof/Certificates/Slice0/Obligations.lean ====
section
/-! DEFINITION. The statements for the provers. Each docstring names the rule of spec/ it formalises, or the spec's own
decision (D<n> of 92_eei_decisions.md) or the entry of the assumption log it rests on. -/

open Sys2Proof Sys2Proof.Machine

/-! ### Encoding -/

/-- Decoding the bytes of an instruction gives the instruction and the bytes after it, for every opcode map whose rows
have numbers of their own (30_encoding.md R70 to R79; the numbers are decision D1, the lone register's field D3). -/
def Obligations.DecodeOfEncodeIsTheInstruction : Prop :=
  ∀ m : OpcodeMap, m.wf = true → ∀ (i : Instr) (rest : List Byte), decode m (encode m i ++ rest) = .ok (i, rest)

/-- Encoding a decoded instruction gives its first byte back but for ignored bits: same class, same opcode, decoded to the
same row (so the low four bits too for HLT and CLI), the same instruction read from it; and the operand byte of a 2-byte row (30_encoding.md R71, R79, R80; decision D3). -/
def Obligations.EncodeOfDecodedKeepsTheUsedBits : Prop :=
  ∀ (m : OpcodeMap) (ir imm : Byte) (op : Op), decodeOp m ir = .ok op →
    ∃ f : Byte, encode m (instrOf op ir imm) = f :: (if opLength op = 2 then [imm] else []) ∧
      classField f = classField ir ∧ opField f = opField ir ∧ decodeOp m f = .ok op ∧ ∀ x : Byte, instrOf op f x = instrOf op ir x

/-- Every first byte under the default opcode numbers (30_encoding.md R90, which follows from decision D1). -/
def Obligations.FirstByteSpaceIsTheTable : Prop :=
  ∀ b : Byte, decodeOp defaultOpcodes b =
    if b.toNat ≤ 0x0F then .ok .data
    else if b.toNat ≤ 0x1F then .ok .ld
    else if b.toNat ≤ 0x2F then .ok .st
    else if b.toNat ≤ 0x3F then .ok .jmp
    else if b.toNat ≤ 0x4F then .ok .jmpr
    else if b.toNat ≤ 0x5F then .ok .jmpif
    else if b.toNat ≤ 0x6F then .ok .int
    else if b.toNat = 0x70 then .ok .hlt
    else if b.toNat = 0x71 then .ok .cli
    else if b.toNat ≤ 0x7F then .error .unknownOpcode
    else if b.toNat ≤ 0x8F then .ok .add
    else if b.toNat ≤ 0x9F then .ok .sub
    else if b.toNat ≤ 0xAF then .ok .inc
    else if b.toNat ≤ 0xBF then .ok .dec
    else if b.toNat ≤ 0xCF then .ok .cmp
    else if b.toNat ≤ 0xDF then .ok .push
    else if b.toNat ≤ 0xEF then .ok .pop
    else .error .unknownOpcode

/-- A few words of 95_test_vectors.md (V2, V4, V6, V10, V12, V14, V18, V23) decode to the instructions they stand for. -/
def Obligations.SampleWordsDecode : Prop :=
  decode defaultOpcodes [0x0C#8, 0x2A#8] = .ok (.data .r4 0x2A#8, []) ∧
  decode defaultOpcodes [0x12#8] = .ok (.ld .r1 .r3, []) ∧
  decode defaultOpcodes [0x21#8] = .ok (.st .r1 .r2, []) ∧
  decode defaultOpcodes [0x44#8] = .ok (.jmpr .r2, []) ∧
  decode defaultOpcodes [0x58#8, 0x10#8] = .ok (.jmpif 8#4 0x10#8, []) ∧
  decode defaultOpcodes [0x60#8, 0x02#8] = .ok (.int 0x02#8, []) ∧
  decode defaultOpcodes [0x81#8] = .ok (.add .r1 .r2, []) ∧
  decode defaultOpcodes [0xD8#8] = .ok (.push .r3, [])

/-- A field that a row does not use may hold any bits: field B of DATA, JMPR, INC, DEC, PUSH and POP, fields A and B of
JMP and INT (30_encoding.md R80, decision D3). -/
def Obligations.UnusedFieldsAreIgnored : Prop :=
  ∀ (m : OpcodeMap) (b c imm : Byte) (op : Op), decodeOp m b = .ok op →
    classField c = classField b → opField c = opField b →
    (op ∈ [Op.jmp, Op.int] → decodeOp m c = .ok op ∧ instrOf op c imm = instrOf op b imm) ∧
    (op ∈ [Op.data, Op.jmpr, Op.inc, Op.dec, Op.push, Op.pop] → aField c = aField b →
      decodeOp m c = .ok op ∧ instrOf op c imm = instrOf op b imm)

/-! ### The CPU's step -/

/-- When the bytes at IAR decode to `i` and the host's next call is `cycle()`, a step executes `i` in the state with
MAR and IR as fetch and operand fetch leave them, and records what `cycle()` returns (41_cycle.md, the step). MAR at the
operand byte of JMP, JMPIF and INT is decision D13 (assumption 20); that an empty schedule means `cycle()` and that the
return value is recorded are the model's choices (assumptions 1 and 13). -/
def Obligations.StepRunsTheDecodedInstruction : Prop :=
  ∀ (s : State) (i : Instr) (tail : List Byte) (rest : List HostCall), s.canStep →
    ((s.env.calls = [] ∧ rest = []) ∨ s.env.calls = .cycle :: rest) →
    decode s.env.cfg.opc s.nextBytes = .ok (i, tail) →
    ∃ t, exec i { s with
        mar := if instrLength i = 2 then s.iar + 1#8 else s.iar
        ir := memRead s.mem s.iar
        env := { s.env with calls := rest } } = .next t ∧
      step s = .next (t.setReply (cycleReply i t))

/-- IAR at the end of a CPU step (41_cycle.md R125): exactly the target of an instruction that jumps, else advanced by
the instruction's length; a step that faults leaves it. -/
def Obligations.IarUpdateAtTheEndOfAStep : Prop :=
  ∀ s t : State, cycle s = .next t →
    (t.fault ≠ none → t.iar = s.iar) ∧
    (t.fault = none → ∀ op, decodeOp s.env.cfg.opc (memRead s.mem s.iar) = .ok op →
      t.iar = match jumpTarget (instrOf op (memRead s.mem s.iar) (memRead s.mem (s.iar + 1#8))) s with
        | some target => target
        | none => s.iar + BitVec.ofNat 8 (opLength op))

/-- What `cycle()` returns (41_cycle.md, the return value): true after every instruction except HLT, false exactly for HLT, an error
value when the step faults. -/
def Obligations.CycleReturnsFalseExactlyForHlt : Prop :=
  ∀ s t : State, cycle s = .next t →
    (t.fault = none → (t.env.reply = .running true ∨ t.env.reply = .running false) ∧
      (t.env.reply = .running false ↔ decodeOp s.env.cfg.opc (memRead s.mem s.iar) = .ok .hlt)) ∧
    (∀ f, t.fault = some f → t.env.reply = .error f)

/-- The CPU has a step exactly when HALTED = 0 and FAULT = none, the tick exactly when FAULT = none; elsewhere a call is
stuck by name (41_cycle.md R120, R127, 60_exceptions.md R194, R200; decisions D14, D15; assumptions 6 and 7). That a state
both halted and faulted answers `faultLatched` is the model's choice (assumption 15). -/
def Obligations.StepsExistExactlyWhenEnabled : Prop :=
  ∀ s : State, ((∃ t, cycle s = .next t) ↔ s.canStep) ∧ ((∃ t, tick s = .next t) ↔ s.fault = none) ∧
    (s.fault = none → s.halted = true → cycle s = .fault .halted) ∧
    (∀ f, s.fault = some f → cycle s = .fault (.faultLatched f) ∧ tick s = .fault (.faultLatched f))

/-- A byte with no assignment raises UnknownOpcode with MAR = IAR and IR the offending byte, nothing else changed; with
the default opcode numbers these bytes are 0x72..0x7F and 0xF0..0xFF (60_exceptions.md, UnknownOpcode). The error that
`cycle()` returns (41_cycle.md, the return value; 60_exceptions.md, what a fault does) is kept in the model's own record
(assumption 13). -/
def Obligations.UnassignedByteRaisesUnknownOpcode : Prop :=
  (∀ (s : State) (e : DecodeError), s.canStep → decodeOp s.env.cfg.opc (memRead s.mem s.iar) = .error e →
    cycle s = .next { s with
      mar := s.iar
      ir := memRead s.mem s.iar
      fault := some { kind := .unknownOpcode, iar := s.iar }
      env := { s.env with reply := .error { kind := .unknownOpcode, iar := s.iar } } }) ∧
  (∀ b : Byte, (∃ e, decodeOp defaultOpcodes b = .error e) ↔
    (0x72 ≤ b.toNat ∧ b.toNat ≤ 0x7F) ∨ 0xF0 ≤ b.toNat)

/-- A store by ST is seen by the very next fetch, of the very next byte too: nothing is prefetched (20_memory.md R60). -/
def Obligations.StoreIsSeenByTheNextFetch : Prop :=
  ∀ (s t : State) (a b : Reg), s.mem.wf = true → s.runs (.st a b) → step s = .next t →
    t.iar = s.iar + 1#8 ∧
    (fetch t).ir = (if readReg a s = s.iar + 1#8 then readReg b s else memRead s.mem (s.iar + 1#8))

/-! ### Data movement -/

/-- DATA executes in every state: register A receives the operand byte, IAR advances by 2, no other register, no flag,
no byte of memory and nothing else changes (42_data_move.md, DATA). -/
def Obligations.DataLoadsTheOperandByte : Prop :=
  ∀ (a : Reg) (imm : Byte) (s : State), ∃ t, exec (.data a imm) s = .next t ∧
    (∀ q, readReg q t = if q = a then imm else readReg q s) ∧ t.iar = s.iar + 2#8 ∧ t.sp = s.sp ∧
    t.flags = s.flags ∧ (∀ x, memRead t.mem x = memRead s.mem x) ∧ t.env.draws = s.env.draws ∧ s.sameRest t

/-- LD executes in every state: register B receives the byte at the address in register A (also when A = B), IAR
advances by 1, MAR is restored, nothing else changes (42_data_move.md, LD). -/
def Obligations.LdLoadsThroughARegister : Prop :=
  ∀ (a b : Reg) (s : State), ∃ t, exec (.ld a b) s = .next t ∧
    (∀ q, readReg q t = if q = b then memRead s.mem (readReg a s) else readReg q s) ∧ t.iar = s.iar + 1#8 ∧
    t.sp = s.sp ∧ t.flags = s.flags ∧ (∀ x, memRead t.mem x = memRead s.mem x) ∧ t.env.draws = s.env.draws ∧
    s.sameRest t

/-- ST executes in every state: the byte at the address in register A becomes register B (also when A = B), every other
byte is as before, IAR advances by 1, MAR is restored, no register and no flag changes (42_data_move.md, ST). -/
def Obligations.StStoresThroughARegister : Prop :=
  ∀ (a b : Reg) (s : State), ∃ t, exec (.st a b) s = .next t ∧
    (s.mem.wf = true → ∀ x, memRead t.mem x = if x = readReg a s then readReg b s else memRead s.mem x) ∧
    (∀ q, readReg q t = readReg q s) ∧ t.iar = s.iar + 1#8 ∧ t.sp = s.sp ∧ t.flags = s.flags ∧
    t.env.draws = s.env.draws ∧ s.sameRest t

/-! ### Control transfer -/

/-- JMP and JMPR execute in every state: JMP goes to PROG_BASE + imm mod 256, JMPR to the absolute address in register
A, and IAR is all that changes (43_control_transfer.md, JMP and JMPR; the field of JMPR is decision D3). -/
def Obligations.JumpsReachTheirTargets : Prop :=
  ∀ s : State,
    (∀ imm, ∃ t, exec (.jmp imm) s = .next t ∧ t.iar.toNat = (s.env.cfg.progBase.toNat + imm.toNat) % 256 ∧
      t = { s with iar := t.iar }) ∧
    (∀ a, exec (.jmpr a) s = .next { s with iar := readReg a s })

/-- JMPIF executes in every state: it branches exactly when the selector is COND_C and C is set or the selector is COND_Z
and Z is set, else IAR advances by 2; a reserved selector never branches; IAR is all that changes
(43_control_transfer.md, JMPIF; 40_alu_unit.md, the condition evaluator; the indices are decision D2). -/
def Obligations.JmpifBranchesOnCarryOrZeroAlone : Prop :=
  ∀ (cond : BitVec 4) (imm : Byte) (s : State), s.env.cfg.condC ≠ s.env.cfg.condZ →
    (((cond = s.env.cfg.condC ∧ s.flags.c = true) ∨ (cond = s.env.cfg.condZ ∧ s.flags.z = true)) →
      exec (.jmpif cond imm) s = .next { s with iar := s.env.cfg.progBase + imm }) ∧
    (¬((cond = s.env.cfg.condC ∧ s.flags.c = true) ∨ (cond = s.env.cfg.condZ ∧ s.flags.z = true)) →
      exec (.jmpif cond imm) s = .next { s with iar := s.iar + 2#8 })

/-! ### System -/

/-- INT, HLT and CLI execute in every state: INT sets the register INT, HLT the latch HALTED, CLI the latch IACK; each
advances IAR past itself and changes nothing else (44_system.md; HLT is decision D14, CLI decision D17). -/
def Obligations.SystemInstructionsSetTheirLatch : Prop :=
  ∀ s : State,
    (∀ imm, exec (.int imm) s = .next { s with int := imm, iar := s.iar + 2#8 }) ∧
    exec .hlt s = .next { s with halted := true, iar := s.iar + 1#8 } ∧
    exec .cli s = .next { s with iack := true, iar := s.iar + 1#8 }

/-! ### Arithmetic -/

/-- ADD executes in every state: register B receives (A + B) mod 256, C, S and Z are those of the unwrapped sum and S is
clear, IAR advances by 1, no other register, no byte of memory and nothing else changes; E and L are free
(45_arithmetic.md, ADD; 40_alu_unit.md; decisions D8, D9, D10). -/
def Obligations.AddStoresTheWrappedSum : Prop :=
  ∀ (a b : Reg) (s : State), ∃ t, exec (.add a b) s = .next t ∧
    (∀ q, q ≠ b → readReg q t = readReg q s) ∧
    (readReg b t).toNat = ((readReg a s).toNat + (readReg b s).toNat) % 256 ∧
    t.flagsFollow s.env.cfg (wideOf (readReg a s) + wideOf (readReg b s)) ∧ t.flags.s = false ∧
    t.iar = s.iar + 1#8 ∧ t.sp = s.sp ∧ (∀ x, memRead t.mem x = memRead s.mem x) ∧ s.sameRest t

/-- SUB executes in every state: register B receives A - B, or 0 where that is negative; C, S and Z are those of the
unclamped difference; the rest as for ADD (45_arithmetic.md, SUB; decisions D8, D9, D10, D12; 90_conflicts.md C7). -/
def Obligations.SubStoresTheClampedDifference : Prop :=
  ∀ (a b : Reg) (s : State), ∃ t, exec (.sub a b) s = .next t ∧
    (∀ q, q ≠ b → readReg q t = readReg q s) ∧
    (readReg b t).toNat = (if (readReg b s).toNat ≤ (readReg a s).toNat
      then (readReg a s).toNat - (readReg b s).toNat else 0) ∧
    t.flagsFollow s.env.cfg (wideOf (readReg a s) - wideOf (readReg b s)) ∧
    t.iar = s.iar + 1#8 ∧ t.sp = s.sp ∧ (∀ x, memRead t.mem x = memRead s.mem x) ∧ s.sameRest t

/-- INC and DEC execute in every state: register A receives A + 1 mod 256, or A - 1 with 0 staying 0; C, S and Z are those
of the result before it is wrapped or clamped, so that INC clears S and DEC sets it exactly at 0; the rest as for ADD
(45_arithmetic.md, INC and DEC; decisions D3, D8, D9, D10). -/
def Obligations.IncWrapsAndDecStopsAtZero : Prop :=
  ∀ (a : Reg) (s : State),
    (∃ t, exec (.inc a) s = .next t ∧
      (∀ q, q ≠ a → readReg q t = readReg q s) ∧
      (readReg a t).toNat = ((readReg a s).toNat + 1) % 256 ∧
      t.flagsFollow s.env.cfg (wideOf (readReg a s) + 1) ∧ t.flags.s = false ∧
      t.iar = s.iar + 1#8 ∧ t.sp = s.sp ∧ (∀ x, memRead t.mem x = memRead s.mem x) ∧ s.sameRest t) ∧
    (∃ t, exec (.dec a) s = .next t ∧
      (∀ q, q ≠ a → readReg q t = readReg q s) ∧
      (readReg a t).toNat = (readReg a s).toNat - 1 ∧
      t.flagsFollow s.env.cfg (wideOf (readReg a s) - 1) ∧ (t.flags.s = true ↔ readReg a s = 0#8) ∧
      t.iar = s.iar + 1#8 ∧ t.sp = s.sp ∧ (∀ x, memRead t.mem x = memRead s.mem x) ∧ s.sameRest t)

/-- CMP executes in every state: no register changes; C, S and Z are those of the unclamped difference, the same that SUB
would leave; S is set exactly when A < B unsigned, Z exactly when A = B under either ZERO_AFTER_WRAP; the rest as for ADD
(45_arithmetic.md, CMP; 40_alu_unit.md, Compare; decisions D8, D9, D10). -/
def Obligations.CmpSetsFlagsAlone : Prop :=
  ∀ (a b : Reg) (s : State), ∃ t, exec (.cmp a b) s = .next t ∧
    t.regs = s.regs ∧ t.flagsFollow s.env.cfg (wideOf (readReg a s) - wideOf (readReg b s)) ∧
    (t.flags.z = true ↔ readReg a s = readReg b s) ∧
    (t.flags.s = true ↔ (readReg a s).toNat < (readReg b s).toNat) ∧
    (∃ u, exec (.sub a b) s = .next u ∧ u.flags.c = t.flags.c ∧ u.flags.s = t.flags.s ∧ u.flags.z = t.flags.z) ∧
    t.iar = s.iar + 1#8 ∧ t.sp = s.sp ∧ (∀ x, memRead t.mem x = memRead s.mem x) ∧ s.sameRest t

/-! ### The stack -/

/-- PUSH executes in every state with SP below 0xFF: the byte at SP becomes register A, SP advances by 1, every other byte
is as before, IAR advances by 1, nothing else changes (46_stack.md, PUSH; decisions D7, D16). -/
def Obligations.PushStoresAtSpAndAdvances : Prop :=
  ∀ (a : Reg) (s : State), s.sp ≠ 0xFF#8 → ∃ t, exec (.push a) s = .next t ∧
    (s.mem.wf = true → ∀ x, memRead t.mem x = if x = s.sp then readReg a s else memRead s.mem x) ∧
    t.sp.toNat = s.sp.toNat + 1 ∧ t.regs = s.regs ∧ t.iar = s.iar + 1#8 ∧ t.flags = s.flags ∧
    t.env.draws = s.env.draws ∧ s.sameRest t

/-- A CPU step that meets PUSH at SP = 0xFF raises StackOverflow with MAR = IAR and IR the PUSH byte; memory, SP, the
registers and all else are unchanged (46_stack.md, PUSH; 60_exceptions.md, StackOverflow; decision D16). -/
def Obligations.PushAtTheTopRaisesStackOverflow : Prop :=
  ∀ s : State, s.canStep → decodeOp s.env.cfg.opc (memRead s.mem s.iar) = .ok .push → s.sp = 0xFF#8 →
    cycle s = .next { s with
      mar := s.iar
      ir := memRead s.mem s.iar
      fault := some { kind := .stackOverflow, iar := s.iar }
      env := { s.env with reply := .error { kind := .stackOverflow, iar := s.iar } } }

/-- POP executes in every state: SP moves down by 1 mod 256, register A receives the byte at the new SP, no byte of memory
changes, IAR advances by 1, nothing else changes; there is no underflow fault (46_stack.md, POP; decision D7;
90_conflicts.md C3). -/
def Obligations.PopMovesDownAndLoads : Prop :=
  ∀ (a : Reg) (s : State), ∃ t, exec (.pop a) s = .next t ∧
    t.sp.toNat = (s.sp.toNat + 255) % 256 ∧
    (∀ q, readReg q t = if q = a then memRead s.mem t.sp else readReg q s) ∧
    (∀ x, memRead t.mem x = memRead s.mem x) ∧ t.iar = s.iar + 1#8 ∧ t.flags = s.flags ∧
    t.env.draws = s.env.draws ∧ s.sameRest t

/-- For every state with SP below 0xFF, PUSH Ra and then POP Rb leave Rb with Ra's value, SP as it was and that value at
SP; everything else but IAR is unchanged (46_stack.md, stack discipline, which follows from decisions D7 and D16). -/
def Obligations.PushThenPopRestoresTheStack : Prop :=
  ∀ (a b : Reg) (s : State), s.mem.wf = true → s.sp ≠ 0xFF#8 → ∃ t u,
    exec (.push a) s = .next t ∧ exec (.pop b) t = .next u ∧
    (∀ q, readReg q u = if q = b then readReg a s else readReg q s) ∧ u.sp = s.sp ∧
    (∀ x, memRead u.mem x = if x = s.sp then readReg a s else memRead s.mem x) ∧ u.flags = s.flags ∧
    u.env.draws = s.env.draws ∧ s.sameRest u

/-- After n pushes SP is n higher, the k-th pushed byte stands k cells above the old SP, and no register has changed
(46_stack.md, stack discipline; decisions D7 and D16). -/
def Obligations.PushesFillTheStackUpward : Prop :=
  ∀ (rs : List Reg) (s : State), s.mem.wf = true → s.sp.toNat + rs.length ≤ 0xFF → ∃ t,
    execAll (rs.map .push) s = .next t ∧ t.sp.toNat = s.sp.toNat + rs.length ∧ t.regs = s.regs ∧ t.fault = s.fault ∧
    ∀ (k : Nat) (h : k < rs.length), memRead t.mem (s.sp + BitVec.ofNat 8 k) = readReg rs[k] s

/-- Pushes and pops nest: pushing registers and popping them in the opposite order gives every register its value back
and SP too (46_stack.md, stack discipline; decisions D7 and D16). -/
def Obligations.PopsReturnPushesInReverse : Prop :=
  ∀ (rs : List Reg) (s : State), s.mem.wf = true → s.sp.toNat + rs.length ≤ 0xFF → ∃ t,
    execAll (rs.map .push ++ rs.reverse.map .pop) s = .next t ∧ t.regs = s.regs ∧ t.sp = s.sp ∧ t.flags = s.flags

/-! ### The ALU as a block -/

/-- Add (40_alu_unit.md R103), with its examples. -/
def Obligations.AluAddWraps : Prop :=
  (∀ (cfg : Config) (a b : Byte) (old : Flags) (n : Nat),
    let w : Int := (a.toNat : Int) + b.toNat
    let o := alu cfg (.arith .add) a b old n;
    0 ≤ w ∧ w ≤ 510 ∧ (o.result.toNat : Int) = w % 256 ∧ o.flags = flagsOf cfg w o.flags.e o.flags.l ∧
    o.flags.s = false ∧
    (cfg = defaultConfig → (o.flags.c = true ↔ 128 ≤ w) ∧ (o.flags.z = true ↔ a = 0#8 ∧ b = 0#8))) ∧
  (∀ (old : Flags) (n : Nat),
    let add := fun a b => alu defaultConfig (.arith .add) a b old n;
    (add 2#8 3#8).result = 5#8 ∧ (add 2#8 3#8).flags.c = false ∧ (add 2#8 3#8).flags.s = false ∧
      (add 2#8 3#8).flags.z = false ∧
    (add 100#8 100#8).result = 200#8 ∧ (add 100#8 100#8).flags.c = true ∧
    (add 200#8 100#8).result = 44#8 ∧ (add 200#8 100#8).flags.c = true ∧
    (add 255#8 1#8).result = 0#8 ∧ (add 255#8 1#8).flags.c = true ∧ (add 255#8 1#8).flags.z = false ∧
    (alu { defaultConfig with zeroAfterWrap := true } (.arith .add) 255#8 1#8 old n).flags.z = true ∧
    (add 0#8 0#8).result = 0#8 ∧ (add 0#8 0#8).flags.c = false ∧ (add 0#8 0#8).flags.z = true)

/-- Subtract (40_alu_unit.md R104), with its examples. -/
def Obligations.AluSubtractClamps : Prop :=
  (∀ (cfg : Config) (a b : Byte) (old : Flags) (n : Nat),
    let w : Int := (a.toNat : Int) - b.toNat
    let o := alu cfg (.arith .subtract) a b old n;
    -255 ≤ w ∧ w ≤ 255 ∧ (o.result.toNat : Int) = max w 0 ∧ o.flags = flagsOf cfg w o.flags.e o.flags.l ∧
    (o.flags.s = true ↔ a.toNat < b.toNat) ∧ (o.flags.z = true ↔ a = b) ∧
    (cfg = defaultConfig → (o.flags.c = true ↔ 128 ≤ w ∨ w ≤ -129))) ∧
  (∀ (old : Flags) (n : Nat),
    let sub := fun a b => alu defaultConfig (.arith .subtract) a b old n;
    (sub 2#8 2#8).result = 0#8 ∧ (sub 2#8 2#8).flags.c = false ∧ (sub 2#8 2#8).flags.s = false ∧
      (sub 2#8 2#8).flags.z = true ∧
    (sub 2#8 3#8).result = 0#8 ∧ (sub 2#8 3#8).flags.c = false ∧ (sub 2#8 3#8).flags.s = true ∧
      (sub 2#8 3#8).flags.z = false ∧
    (sub 5#8 3#8).result = 2#8 ∧ (sub 5#8 3#8).flags.c = false ∧ (sub 5#8 3#8).flags.s = false ∧
      (sub 5#8 3#8).flags.z = false ∧
    (sub 200#8 10#8).result = 190#8 ∧ (sub 200#8 10#8).flags.c = true ∧
    (sub 0#8 200#8).result = 0#8 ∧ (sub 0#8 200#8).flags.c = true ∧ (sub 0#8 200#8).flags.s = true ∧
      (sub 0#8 200#8).flags.z = false)

/-- Increment (40_alu_unit.md R105) and Decrement (R106), with their examples. -/
def Obligations.AluIncrementWrapsAndDecrementClamps : Prop :=
  (∀ (cfg : Config) (a b : Byte) (old : Flags) (n : Nat),
    let w : Int := (a.toNat : Int) + 1
    let o := alu cfg (.arith .increment) a b old n;
    1 ≤ w ∧ w ≤ 256 ∧ (o.result.toNat : Int) = w % 256 ∧ o.flags = flagsOf cfg w o.flags.e o.flags.l ∧
    o.flags.s = false ∧
    (cfg = defaultConfig → (o.flags.c = true ↔ 127 ≤ a.toNat) ∧ o.flags.z = false) ∧
    (cfg.zeroAfterWrap = true → (o.flags.z = true ↔ a = 255#8))) ∧
  (∀ (cfg : Config) (a b : Byte) (old : Flags) (n : Nat),
    let w : Int := (a.toNat : Int) - 1
    let o := alu cfg (.arith .decrement) a b old n;
    -1 ≤ w ∧ w ≤ 254 ∧ (o.result.toNat : Int) = max w 0 ∧ o.flags = flagsOf cfg w o.flags.e o.flags.l ∧
    (o.flags.s = true ↔ a = 0#8) ∧ (o.flags.z = true ↔ a = 1#8) ∧
    (cfg = defaultConfig → (o.flags.c = true ↔ 129 ≤ a.toNat))) ∧
  (∀ (b : Byte) (old : Flags) (n : Nat),
    let inc := fun a => alu defaultConfig (.arith .increment) a b old n;
    let dec := fun a => alu defaultConfig (.arith .decrement) a b old n;
    (inc 0#8).result = 1#8 ∧ (inc 0#8).flags.c = false ∧ (inc 0#8).flags.s = false ∧ (inc 0#8).flags.z = false ∧
    (inc 127#8).result = 128#8 ∧ (inc 127#8).flags.c = true ∧
    (inc 255#8).result = 0#8 ∧ (inc 255#8).flags.c = true ∧ (inc 255#8).flags.z = false ∧
    (dec 3#8).result = 2#8 ∧ (dec 3#8).flags.c = false ∧ (dec 3#8).flags.s = false ∧ (dec 3#8).flags.z = false ∧
    (dec 1#8).result = 0#8 ∧ (dec 1#8).flags.z = true ∧
    (dec 0#8).result = 0#8 ∧ (dec 0#8).flags.s = true ∧ (dec 0#8).flags.z = false ∧ (dec 0#8).flags.c = false ∧
    (dec 200#8).result = 199#8 ∧ (dec 200#8).flags.c = true)

/-- Or, And and Not work bit by bit, Not is 255 - a and does not look at b, and none changes a flag (40_alu_unit.md R108,
R109, R110), with their examples. -/
def Obligations.AluBitwiseOperations : Prop :=
  (∀ (cfg : Config) (a b : Byte) (old : Flags) (n : Nat),
    let res := fun op => (alu cfg (.bits op) a b old n).result;
    (∀ i : Fin 8, (res .or).getLsbD i = (a.getLsbD i || b.getLsbD i) ∧
      (res .and).getLsbD i = (a.getLsbD i && b.getLsbD i) ∧ (res .not).getLsbD i = !a.getLsbD i) ∧
    (res .not).toNat = 255 - a.toNat ∧
    (∀ c, (alu cfg (.bits .not) a c old n).result = res .not) ∧
    (alu cfg (.bits .or) a b old n).flags = old ∧ (alu cfg (.bits .and) a b old n).flags = old ∧
    (alu cfg (.bits .not) a b old n).flags = old) ∧
  (∀ (cfg : Config) (b : Byte) (old : Flags) (n : Nat),
    (alu cfg (.bits .or) 0x0F#8 0xF0#8 old n).result = 0xFF#8 ∧
    (alu cfg (.bits .and) 0x3C#8 0x0F#8 old n).result = 0x0C#8 ∧
    (alu cfg (.bits .not) 0x0F#8 b old n).result = 0xF0#8)

/-- Shl and Shr by at most 7: a * 2^b mod 256 and a / 2^b; no flag changes; the result of a shift by 8 or more is free and
nothing is said of it (40_alu_unit.md, bitwise operations; decision D25, assumption 5). -/
def Obligations.AluShiftsByAtMostSeven : Prop :=
  ∀ (cfg : Config) (a b : Byte) (old : Flags) (n : Nat),
    (b.toNat ≤ 7 →
      (alu cfg (.bits .shl) a b old n).result.toNat = a.toNat * 2 ^ b.toNat % 256 ∧
      (alu cfg (.bits .shr) a b old n).result.toNat = a.toNat / 2 ^ b.toNat) ∧
    (alu cfg (.bits .shl) a b old n).flags = old ∧ (alu cfg (.bits .shr) a b old n).flags = old

/-- The byte the host reads holds each flag at its FLAG_BIT position and 0 elsewhere (10_state.md, flags; decision
D11). -/
def Obligations.FlagsByteLayout : Prop :=
  ∀ (cfg : Config) (f : Flags), cfg.flagBitsApart = true →
    (flagsByte cfg f).getLsbD cfg.flagBitC = f.c ∧ (flagsByte cfg f).getLsbD cfg.flagBitS = f.s ∧
    (flagsByte cfg f).getLsbD cfg.flagBitZ = f.z ∧ (flagsByte cfg f).getLsbD cfg.flagBitE = f.e ∧
    (flagsByte cfg f).getLsbD cfg.flagBitL = f.l ∧
    ∀ j : Fin 8, j ∉ [cfg.flagBitC, cfg.flagBitS, cfg.flagBitZ, cfg.flagBitE, cfg.flagBitL] →
      (flagsByte cfg f).getLsbD j = false

/-! ### Memory -/

/-- Two memories in canonical form that read the same everywhere are the same list (the model's own representation of
20_memory.md, the address space). -/
def Obligations.CanonicalMemoriesAreEqual : Prop :=
  ∀ m n : Memory, m.wf = true → n.wf = true → (∀ a, memRead m a = memRead n a) → m = n

/-- A load returns the byte most recently stored to that address, whatever stores went before it (20_memory.md,
ordering). -/
def Obligations.LoadsSeeTheLastStore : Prop :=
  ∀ (m : Memory) (stores : List (Byte × Byte)) (a : Byte), m.wf = true →
    (storesDone m stores).wf = true ∧
    memRead (storesDone m stores) a = match lastStored a stores with
      | some v => v
      | none => memRead m a

/-! ### The peripherals -/

/-- A delivery to the keyboard appends to KBUF while it holds fewer than KBD_MAX bytes and is dropped otherwise; one to
the screen does nothing; both happen in every state and change nothing else (60_exceptions.md, deliveries; decision D21).
That a delivery to the screen does nothing is decision D20 (assumptions 17 and 23); that one happens in a faulted state too
follows R202 against decision D23 (assumption 28); the reply is the model's record (assumption 13). -/
def Obligations.DeliveriesReachTheKeyboardBuffer : Prop :=
  ∀ (s : State) (v : Byte) (rest : List HostCall),
    (s.env.calls = .deliver .keyboard v :: rest → step s = .next { s with
      kbuf := if s.kbuf.length < s.env.cfg.kbdMax then s.kbuf ++ [v] else s.kbuf
      env := { s.env with calls := rest, reply := .nothing } }) ∧
    (s.env.calls = .deliver .screen v :: rest → step s = .next { s with
      env := { s.env with calls := rest, reply := .nothing } })

/-- A tick with INT at the keyboard's code, no acknowledgement pending and keys buffered drains them to memory from
KBD_BASE, oldest lowest, reports base and count in two registers and empties the buffer; every other byte and register,
the flags and all else are unchanged; with no key buffered it changes nothing (60_exceptions.md, keyboard service; decisions
D19, D21, D31, assumption 17). The reply ok is the model's record (assumption 13). -/
def Obligations.KeyboardServiceDrainsTheBuffer : Prop :=
  ∀ s : State, s.wf = true → s.fault = none → s.iack = false → s.int = s.env.cfg.intKeyboard →
    (s.kbuf = [] → tick s = .next { s with env := { s.env with reply := .ok } }) ∧
    (s.kbuf ≠ [] → ∃ t, tick s = .next t ∧
      (∀ (i : Nat) (h : i < s.kbuf.length), memRead t.mem (s.env.cfg.kbdBase + BitVec.ofNat 8 i) = s.kbuf[i]) ∧
      (∀ x, (∀ i < s.kbuf.length, x ≠ s.env.cfg.kbdBase + BitVec.ofNat 8 i) → memRead t.mem x = memRead s.mem x) ∧
      readReg s.env.cfg.kbdAddrReg t = s.env.cfg.kbdBase ∧
      (readReg s.env.cfg.kbdCountReg t).toNat = s.kbuf.length ∧
      (∀ q, q ≠ s.env.cfg.kbdAddrReg → q ≠ s.env.cfg.kbdCountReg → readReg q t = readReg q s) ∧
      t = { s with regs := t.regs, mem := t.mem, kbuf := [], env := { s.env with reply := .ok } })

/-- A tick with INT at the screen's code and no acknowledgement pending writes the colour register to pixel
x + SCREEN_W * y alone, or, when that index is outside the buffer, raises ScreenIndexOutOfRange and leaves PIX as it was
(60_exceptions.md, screen service; decisions D19, D20, D31, assumption 17). The reply is the model's record (assumption
13). -/
def Obligations.ScreenServiceWritesOnePixelOrFaults : Prop :=
  ∀ s : State, s.wf = true → s.fault = none → s.iack = false → s.int = s.env.cfg.intScreen →
    let idx := (readReg s.env.cfg.scrXReg s).toNat + s.env.cfg.screenW * (readReg s.env.cfg.scrYReg s).toNat
    (idx < s.env.cfg.screenW * s.env.cfg.screenH → ∃ t, tick s = .next t ∧
      t.pix[idx]? = some (readReg s.env.cfg.scrColorReg s) ∧ (∀ j, j ≠ idx → t.pix[j]? = s.pix[j]?) ∧
      t = { s with pix := t.pix, env := { s.env with reply := .ok } }) ∧
    (s.env.cfg.screenW * s.env.cfg.screenH ≤ idx → tick s = .next { s with
      fault := some { kind := .screenIndexOutOfRange, iar := s.iar }
      env := { s.env with reply := .error { kind := .screenIndexOutOfRange, iar := s.iar } } })

/-- A tick with IACK set empties the keyboard buffer, blanks the screen, clears IACK and, when ACK_CLEARS_INT, zeroes INT,
and serves nothing unless INT stays at the screen's code; then it writes one pixel of the blank screen, or raises
ScreenIndexOutOfRange (60_exceptions.md, acknowledgement and screen service; decisions D17, D20, D22, assumptions 16 and
17). That the faulting tick keeps the acknowledgement is assumption 14; the reply is the model's record (assumption 13). -/
def Obligations.AcknowledgementComesBeforeTheServices : Prop :=
  ∀ s : State, s.wf = true → s.fault = none → s.iack = true →
    let blank := List.replicate (s.env.cfg.screenW * s.env.cfg.screenH) 0#8
    let idx := (readReg s.env.cfg.scrXReg s).toNat + s.env.cfg.screenW * (readReg s.env.cfg.scrYReg s).toNat
    (s.env.cfg.ackClearsInt = true ∨ s.int ≠ s.env.cfg.intScreen → tick s = .next { s with
      iack := false
      kbuf := []
      pix := blank
      int := if s.env.cfg.ackClearsInt then 0#8 else s.int
      env := { s.env with reply := .ok } }) ∧
    (s.env.cfg.ackClearsInt = false → s.int = s.env.cfg.intScreen →
      (idx < s.env.cfg.screenW * s.env.cfg.screenH → tick s = .next { s with
        iack := false
        kbuf := []
        pix := blank.set idx (readReg s.env.cfg.scrColorReg s)
        env := { s.env with reply := .ok } }) ∧
      (s.env.cfg.screenW * s.env.cfg.screenH ≤ idx → tick s = .next { s with
        iack := false
        kbuf := []
        pix := blank
        fault := some { kind := .screenIndexOutOfRange, iar := s.iar }
        env := { s.env with reply := .error { kind := .screenIndexOutOfRange, iar := s.iar } } }))

/-- A code in INT that no peripheral claims, 0 and 3..255, makes the tick do nothing beyond a possible acknowledgement
(60_exceptions.md, unclaimed codes; the acknowledgement is decision D17, assumption 16); the reply ok is the model's record
of what the entry point returns (assumption 13). -/
def Obligations.UnclaimedCodesAreIgnored : Prop :=
  ∀ s : State, s.wf = true → s.fault = none → (s.int = 0#8 ∨ 3 ≤ s.int.toNat) →
    tick s = .next ((if s.iack then acknowledge s else s).setReply .ok)

/-- The two services of a tick may be run in either order (60_exceptions.md, the tick; decision D22). -/
def Obligations.ServicesCommute : Prop :=
  ∀ s : State, s.env.cfg.wf = true → s.fault = none →
    screenProcess (keyboardProcess s) =
      (if (screenProcess s).fault.isSome then screenProcess s else keyboardProcess (screenProcess s))

/-- A tick leaves the flags, SP, IAR, MAR, IR, OUT, HALTED and the configuration as they were (60_exceptions.md, the tick;
decision D31). -/
def Obligations.TickLeavesFlagsSpIarMarIrOutAndHalted : Prop :=
  ∀ s t : State, tick s = .next t →
    t.flags = s.flags ∧ t.sp = s.sp ∧ t.iar = s.iar ∧ t.mar = s.mar ∧ t.ir = s.ir ∧ t.out = s.out ∧
    t.halted = s.halted ∧ t.env.cfg = s.env.cfg ∧ t.env.image = s.env.image ∧ t.env.calls = s.env.calls

/-! ### Boot and reset -/

/-- `boot(img)` (70_reset_and_hazards.md, boot): an image longer than PROG_CAP raises ImageTooLarge and changes nothing
else; one that fits is copied from PROG_BASE up, MAR and IAR become PROG_BASE, and no other byte and nothing else
changes. That a failed boot is remembered is assumption 10; that boot runs in a halted or faulted state, clears neither
latch there, and replaces FAULT when it fails is assumption 12; the reply is the model's record (assumption 13). -/
def Obligations.BootLoadsTheImage : Prop :=
  ∀ (img : List Byte) (s : State), s.wf = true →
    (s.env.cfg.progCap < img.length → boot img s = { s with
      fault := some { kind := .imageTooLarge, iar := s.iar }
      env := { s.env with image := img, reply := .error { kind := .imageTooLarge, iar := s.iar } } }) ∧
    (img.length ≤ s.env.cfg.progCap →
      (∀ (i : Nat) (h : i < img.length),
        memRead (boot img s).mem (s.env.cfg.progBase + BitVec.ofNat 8 i) = img[i]) ∧
      (∀ x, (∀ i < img.length, x ≠ s.env.cfg.progBase + BitVec.ofNat 8 i) →
        memRead (boot img s).mem x = memRead s.mem x) ∧
      (img = [] → (boot img s).mem = s.mem) ∧
      boot img s = { s with
        mem := (boot img s).mem
        mar := s.env.cfg.progBase
        iar := s.env.cfg.progBase
        env := { s.env with image := img, reply := .ok } })

/-- The state after `reset()` with a last image that fits, from any state (10_state.md, reset values; decisions D5, D6,
D14, D15, D17, D20, D21). -/
def Obligations.ResetGivesEveryFieldItsValue : Prop :=
  ∀ s : State, s.env.cfg.wf = true → s.env.image.length ≤ s.env.cfg.progCap →
    let t := resetMachine s
    (∀ q, readReg q t = 0#8) ∧ t.iar = s.env.cfg.progBase ∧ t.mar = s.env.cfg.progBase ∧ t.ir = 0#8 ∧ t.out = 0#8 ∧
    t.sp.toNat = s.env.cfg.progBase.toNat + s.env.cfg.progCap ∧ t.int = 0#8 ∧
    t.flags = ⟨false, false, false, false, false⟩ ∧ t.iack = false ∧ t.halted = false ∧ t.fault = none ∧
    (∀ (i : Nat) (h : i < s.env.image.length),
      memRead t.mem (s.env.cfg.progBase + BitVec.ofNat 8 i) = s.env.image[i]) ∧
    (∀ x, (∀ i < s.env.image.length, x ≠ s.env.cfg.progBase + BitVec.ofNat 8 i) → memRead t.mem x = 0#8) ∧
    t.kbuf = [] ∧ t.pix.length = s.env.cfg.screenW * s.env.cfg.screenH ∧ (∀ p ∈ t.pix, p = 0#8) ∧
    t.env.cfg = s.env.cfg

/-- Reset is idempotent, booting the same image after it changes nothing, and a fresh machine booted with that image is
the reset machine (70_reset_and_hazards.md, reset and boot; decision D5; for an image that does not fit, the first clause
rests on assumption 11). -/
def Obligations.ResetIsIdempotent : Prop :=
  ∀ s : State, s.env.cfg.wf = true →
    resetMachine (resetMachine s) = resetMachine s ∧
    (s.env.image.length ≤ s.env.cfg.progCap →
      boot s.env.image (resetMachine s) = resetMachine s ∧
      { boot s.env.image (State.fresh s.env.cfg) with env := (resetMachine s).env } = resetMachine s)

/-! ### Invariants of every step -/

/-- A step from a state in order leads to a state in order: the configuration stays admissible, memory keeps its canonical
form, KBUF holds at most KBD_MAX bytes, PIX one byte for each pixel (10_state.md R32 to R34 name what is kept). -/
def Obligations.EveryStepKeepsTheStateInOrder : Prop :=
  ∀ s t : State, s.wf = true → step s = .next t → t.wf = true

/-- The reset state is in order, for every admissible configuration (10_state.md, reset values). -/
def Obligations.ResetStateIsInOrder : Prop :=
  State.reset.wf = true ∧ ∀ cfg : Config, cfg.wf = true → (State.resetWith cfg).wf = true

/-- Nothing but reset clears HALTED or FAULT, and only HLT sets HALTED (10_state.md, hidden state; decisions D14, D15;
that a boot clears neither is assumption 12). -/
def Obligations.OnlyResetClearsHaltedAndFault : Prop :=
  ∀ s t : State, step s = .next t →
    (¬s.nextIs .reset → (s.halted = true → t.halted = true) ∧ (s.fault ≠ none → t.fault ≠ none)) ∧
    (s.halted = false → t.halted = true → s.runs .hlt ∧ t.iar = s.iar + 1#8)

/-- Where faults come from (60_exceptions.md, faults; decisions D16, D20, D28; a reset with an image that does not fit is
assumption 11): a fault raised by a step records IAR as it stood before the step, and each kind has its one cause. -/
def Obligations.FaultsHaveTheirCauses : Prop :=
  ∀ (s t : State) (f : FaultRecord), s.wf = true → step s = .next t → s.fault = none → t.fault = some f →
    f.iar = s.iar ∧
    match f.kind with
    | .unknownOpcode => s.nextIs .cycle ∧ ∃ e, decodeOp s.env.cfg.opc (memRead s.mem s.iar) = .error e
    | .stackOverflow => s.sp = 0xFF#8 ∧ ∃ a, s.runs (.push a)
    | .screenIndexOutOfRange => s.nextIs .tick ∧ s.int = s.env.cfg.intScreen ∧
        s.env.cfg.screenW * s.env.cfg.screenH ≤
          (readReg s.env.cfg.scrXReg s).toNat + s.env.cfg.screenW * (readReg s.env.cfg.scrYReg s).toNat
    | .imageTooLarge => (∃ img, s.nextIs (.boot img) ∧ s.env.cfg.progCap < img.length) ∨
        (s.nextIs .reset ∧ s.env.cfg.progCap < s.env.image.length)

/-- Who writes memory (20_memory.md, address map and ordering): a byte that a step changes is the one ST or PUSH stores
to, one the keyboard service drains to, one of a booted image, or is changed by reset. That a screen service writes no
memory is decision D20 (assumption 17), that PUSH stores at the old SP, below 0xFF, decisions D7 and D16 (assumption 18),
where keys are drained to D21 (assumption 17). -/
def Obligations.MemoryIsWrittenOnlyByItsWriters : Prop :=
  ∀ (s t : State) (x : Byte), s.mem.wf = true → step s = .next t → memRead t.mem x ≠ memRead s.mem x →
    (∃ a b, s.runs (.st a b) ∧ x = readReg a s) ∨
    (∃ a, s.runs (.push a) ∧ x = s.sp ∧ s.sp ≠ 0xFF#8) ∨
    (s.nextIs .tick ∧ s.int = s.env.cfg.intKeyboard ∧
      ∃ i < s.kbuf.length, x = s.env.cfg.kbdBase + BitVec.ofNat 8 i) ∨
    (∃ img, s.nextIs (.boot img) ∧ ∃ i < img.length, x = s.env.cfg.progBase + BitVec.ofNat 8 i) ∨
    s.nextIs .reset

/-- Who writes the general registers (10_state.md, general registers): a register that a step changes is the destination
of the executed instruction, one of the two that the keyboard service reports in when keys are buffered, or is changed by
reset. That SUB writes register B is decision D12 (assumption 19), that a lone register is field A decision D3 (assumption
20), the keyboard's two registers D19 (assumption 17). -/
def Obligations.RegistersAreWrittenOnlyByTheirWriters : Prop :=
  ∀ (s t : State) (q : Reg), step s = .next t → readReg q t ≠ readReg q s →
    (∃ i, s.runs i ∧ destination i = some q) ∨
    (s.nextIs .tick ∧ s.int = s.env.cfg.intKeyboard ∧ s.kbuf ≠ [] ∧ (q = s.env.cfg.kbdAddrReg ∨ q = s.env.cfg.kbdCountReg)) ∨
    s.nextIs .reset

/-- Who writes SP and INT (10_state.md, system and control registers; decisions D6, D7, D17, D18, assumptions 16 to 18): SP changes only by one
PUSH, one POP, or at reset; INT only by the instruction INT, an acknowledgement that clears it, or reset. -/
def Obligations.SpAndIntAreWrittenOnlyByTheirWriters : Prop :=
  ∀ s t : State, step s = .next t →
    (t.sp ≠ s.sp → (∃ a, s.runs (.push a) ∧ t.sp = s.sp + 1#8) ∨ (∃ a, s.runs (.pop a) ∧ t.sp = s.sp - 1#8) ∨
      s.nextIs .reset) ∧
    (t.int ≠ s.int → s.runs (.int t.int) ∨
      (s.nextIs .tick ∧ s.iack = true ∧ s.env.cfg.ackClearsInt = true ∧ t.int = 0#8) ∨
      (s.nextIs .reset ∧ t.int = 0#8))

/-- Only ADD, SUB, INC, DEC, CMP and reset change a flag; PUSH, POP, ticks, deliveries and boot do not (10_state.md, flags;
decisions D7 and D31, assumptions 17 and 18). -/
def Obligations.FlagsAreWrittenOnlyByArithmetic : Prop :=
  ∀ s t : State, step s = .next t → t.flags ≠ s.flags →
    (∃ i, s.runs i ∧ i.op ∈ [Op.add, Op.sub, Op.inc, Op.dec, Op.cmp]) ∨ s.nextIs .reset

/-- No step changes the configuration (assumption 2), and none changes OUT but reset, which puts 0x00 there (10_state.md,
OUT; decision D5). -/
def Obligations.OutAndTheConfigurationStay : Prop :=
  ∀ s t : State, step s = .next t →
    t.env.cfg = s.env.cfg ∧ (t.out ≠ s.out → s.nextIs .reset ∧ t.out = 0#8)

/-! ### What the CPU cannot see -/

/-- The CPU's step neither reads nor writes the peripherals' buffers: with any other contents of KBUF and PIX it does the
same and carries them along (10_state.md, hidden state; 60_exceptions.md, the tick). -/
def Obligations.CpuDoesNotSeeThePeripheralBuffers : Prop :=
  ∀ (s : State) (k p : List Byte),
    (∀ t, cycle s = .next t → cycle ((s.setKbuf k).setPix p) = .next ((t.setKbuf k).setPix p)) ∧
    (∀ f, cycle s = .fault f → cycle ((s.setKbuf k).setPix p) = .fault f)

/-- A delivery and a CPU step may come in either order: but for the last reply the states are the same (60_exceptions.md,
scheduling and keyboard delivery; decisions D21, D23). Where the step faults, that the delivery after it is carried out
follows R202 against D23 (assumption 28). -/
def Obligations.DeliveryCommutesWithACpuStep : Prop :=
  ∀ (s t : State) (p : Peripheral) (v : Byte), cycle s = .next t →
    cycle (deliver p v s) = .next ((deliver p v t).setReply t.env.reply)

/-! ### Assembly -/

/-- An assembled image has exactly the bytes its lines take, and a label stands for the byte offset of the line it
precedes, taking no byte itself (30_encoding.md, assembler syntax); a program with two labels of one name is not
assembled, which is the model's choice (assumption 22). -/
def Obligations.ImageSizeAndLabelOffsets : Prop :=
  ∀ (cfg : Config) (lines : List SrcLine) (img : List Byte), assemble cfg lines = .ok img →
    img.length = linesSize lines ∧
    ∃ t, collectLabels 0 lines = .ok t ∧ ∀ (before after : List SrcLine) (name : String),
      lines = before ++ .label name :: after →
        findLabel t name = some (linesSize before) ∧ .label name ∉ before ∧ .label name ∉ after

/-- No program with the form `CMP Ra, imm` is assembled; the line is refused by name (30_encoding.md, CMP-immediate;
decision D24). -/
def Obligations.CmpImmediateIsRefused : Prop :=
  ∀ (cfg : Config) (lines : List SrcLine) (x : SrcOperand) (v : Nat),
    (∀ t, asmInstr cfg t (.plain .cmp) [x, .num v] = .error .cmpImmediate) ∧
    (.instr (.plain .cmp) [x, .num v] ∈ lines → ∀ img, assemble cfg lines ≠ .ok img)
end

