-- ==== Sys2Proof/Laws/Decode.lean ====
section
/-! SUPPORT. The decoder and the encoder: what a field of an assembled byte is, and what a decoded row says of the
byte. -/

namespace Sys2Proof

/-! ### Fields of an assembled byte (30_encoding.md R71) -/

theorem classField_firstByte : ∀ (c : BitVec 1) (o : BitVec 3) (l : BitVec 4),
    classField (firstByte c o l) = c.getLsbD 0 := by decide

theorem opField_firstByte : ∀ (c : BitVec 1) (o : BitVec 3) (l : BitVec 4), opField (firstByte c o l) = o := by decide

theorem lowField_firstByte : ∀ (c : BitVec 1) (o : BitVec 3) (l : BitVec 4), lowField (firstByte c o l) = l := by decide

theorem aField_regPair (c : BitVec 1) (o : BitVec 3) (a b : Reg) : aField (firstByte c o (regPair a b)) = a := by
  cases a <;> cases b <;> revert c o <;> decide

theorem bField_regPair (c : BitVec 1) (o : BitVec 3) (a b : Reg) : bField (firstByte c o (regPair a b)) = b := by
  cases a <;> cases b <;> revert c o <;> decide

theorem aField_regAlone (c : BitVec 1) (o : BitVec 3) (a : Reg) : aField (firstByte c o (regAlone a)) = a := by
  cases a <;> revert c o <;> decide

/-! ### Decoding a first byte -/

/-- Whether a row is of the ALU-class (30_encoding.md R72). -/
def opIsAlu : Op → Bool
  | .add | .sub | .inc | .dec | .cmp | .push | .pop => true
  | .data | .ld | .st | .jmp | .jmpr | .jmpif | .int | .hlt | .cli => false

/-- The 3-bit number of a row (30_encoding.md R73, R74). -/
def opNumber (m : OpcodeMap) : Op → BitVec 3
  | .data => m.data
  | .ld => m.ld
  | .st => m.st
  | .jmp => m.jmp
  | .jmpr => m.jmpr
  | .jmpif => m.jmpif
  | .int => m.int
  | .hlt => m.sys
  | .cli => m.sys
  | .add => m.add
  | .sub => m.sub
  | .inc => m.inc
  | .dec => m.dec
  | .cmp => m.cmp
  | .push => m.push
  | .pop => m.pop

/-- What a decoded row says of the byte: its class, its opcode field and, in the SYS group, its sub-function. -/
theorem decodeOp_ok {m : OpcodeMap} {b : Byte} {op : Op} (h : decodeOp m b = .ok op) :
    classField b = opIsAlu op ∧ opField b = opNumber m op ∧ (op = .hlt → lowField b = m.hlt) ∧
      (op = .cli → lowField b = m.cli) := by
  unfold decodeOp at h
  dsimp only at h
  split at h
  · next hc =>
    iterate 7
      split at h
      · next ho => cases h; exact ⟨hc, ho, nofun, nofun⟩
    cases h
  · next hc =>
    rw [Bool.not_eq_true] at hc
    iterate 7
      split at h
      · next ho => cases h; exact ⟨hc, ho, nofun, nofun⟩
    split at h
    · next ho =>
      split at h
      · next hl => cases h; exact ⟨hc, ho, fun _ => hl, nofun⟩
      · split at h
        · next hl => cases h; exact ⟨hc, ho, nofun, fun _ => hl⟩
        · cases h
    · cases h

/-- The decoder looks at the class, the opcode field and the low bits alone. -/
theorem decodeOp_congr {m : OpcodeMap} {b c : Byte} (hc : classField c = classField b) (ho : opField c = opField b)
    (hl : lowField c = lowField b) : decodeOp m c = decodeOp m b := by
  unfold decodeOp
  rw [hc, ho, hl]

/-- Outside the SYS group the low bits do not select the row (30_encoding.md R79, R80). -/
theorem decodeOp_congr_of_not_sys {m : OpcodeMap} {b c : Byte} {op : Op} (h : decodeOp m b = .ok op)
    (hc : classField c = classField b) (ho : opField c = opField b) (h1 : op ≠ .hlt) (h2 : op ≠ .cli) :
    decodeOp m c = .ok op := by
  unfold decodeOp at h ⊢
  rw [hc, ho]
  dsimp only at h ⊢
  by_cases hcl : classField b = true
  · rw [if_pos hcl] at h ⊢; exact h
  · rw [if_neg hcl] at h ⊢
    iterate 7
      split at h
      · next hx => rw [if_pos hx]; exact h
      rename_i hx
      rw [if_neg hx]
      clear hx
    split at h
    · split at h
      · cases h; exact absurd rfl h1
      · split at h
        · cases h; exact absurd rfl h2
        · cases h
    · cases h

/-- The decoder refuses a byte by one name. -/
theorem decodeOp_error {m : OpcodeMap} {b : Byte} {e : DecodeError} (h : decodeOp m b = .error e) :
    e = .unknownOpcode := by
  unfold decodeOp at h
  dsimp only at h
  split at h
  · iterate 7
      split at h
      · cases h
    cases h; rfl
  · iterate 7
      split at h
      · cases h
    split at h
    · split at h
      · cases h
      · split at h
        · cases h
        · cases h; rfl
    · cases h; rfl

/-- A row of one byte does not look at the operand byte. -/
theorem instrOf_of_length_one {op : Op} (h : opLength op = 1) (ir x y : Byte) : instrOf op ir x = instrOf op ir y := by
  cases op <;> first | rfl | cases h

/-- The row of an instruction is the row it was read as. -/
@[simp] theorem instrOf_op (op : Op) (ir imm : Byte) : (instrOf op ir imm).op = op := by cases op <;> rfl

/-- A row is one byte long or two. -/
theorem opLength_cases (op : Op) : opLength op = 1 ∨ opLength op = 2 := by
  cases op <;> first | exact .inl rfl | exact .inr rfl

end Sys2Proof
end

