-- ==== Sys2Proof/Laws/Memory.lean ====
section
/-! SUPPORT. Memory: what a read sees after a write (20_memory.md R51), and that every operation keeps the canonical
form. -/

namespace Sys2Proof.Machine

/-! ### The canonical form -/

theorem memWfFrom_cons {lo k : Nat} {v : Byte} {rest : Memory} :
    memWfFrom lo ((k, v) :: rest) = true ↔ lo ≤ k ∧ k < 256 ∧ v ≠ unlistedByte ∧ memWfFrom (k + 1) rest = true := by
  simp [memWfFrom, and_assoc]

theorem memWfFrom_mono {lo lo' : Nat} (h : lo' ≤ lo) {m : Memory} (hm : memWfFrom lo m = true) :
    memWfFrom lo' m = true := by
  cases m with
  | nil => rfl
  | cons c rest =>
    obtain ⟨k, v⟩ := c
    rw [memWfFrom_cons] at hm ⊢
    exact ⟨by omega, hm.2⟩

/-- The empty memory, that of reset, is in canonical form. -/
theorem memWf_nil : Memory.wf [] = true := rfl

/-- An address below every entry reads as unlisted. -/
theorem cellAt_of_lt {m : Memory} {lo a : Nat} (hm : memWfFrom lo m = true) (ha : a < lo) :
    cellAt m a = unlistedByte := by
  induction m generalizing lo with
  | nil => rfl
  | cons c rest ih =>
    obtain ⟨k, v⟩ := c
    rw [memWfFrom_cons] at hm
    rw [cellAt, if_neg (by omega)]
    exact ih hm.2.2.2 (by omega)

theorem consCell_wf {lo a : Nat} {v : Byte} {rest : Memory} (hlo : lo ≤ a) (ha : a < 256)
    (h : memWfFrom (a + 1) rest = true) : memWfFrom lo (consCell a v rest) = true := by
  unfold consCell
  split
  · exact memWfFrom_mono (by omega) h
  · next hv => exact memWfFrom_cons.mpr ⟨hlo, ha, hv, h⟩

theorem putCell_wf {m : Memory} {lo a : Nat} {v : Byte} (hm : memWfFrom lo m = true) (hlo : lo ≤ a) (ha : a < 256) :
    memWfFrom lo (putCell m a v) = true := by
  induction m generalizing lo with
  | nil => exact consCell_wf hlo ha rfl
  | cons c rest ih =>
    obtain ⟨k, w⟩ := c
    have h := memWfFrom_cons.mp hm
    unfold putCell
    split
    · exact consCell_wf hlo ha (memWfFrom_cons.mpr ⟨by omega, h.2⟩)
    · split
      · next hk => subst hk; exact consCell_wf hlo ha h.2.2.2
      · exact memWfFrom_cons.mpr ⟨h.1, h.2.1, h.2.2.1, ih h.2.2.2 (by omega)⟩

/-- A write keeps the canonical form. -/
theorem memWrite_wf {m : Memory} (hm : m.wf = true) (a v : Byte) : (memWrite m a v).wf = true :=
  putCell_wf hm (Nat.zero_le _) a.isLt

/-- A write of consecutive bytes keeps the canonical form. -/
theorem memWriteAll_wf {m : Memory} (hm : m.wf = true) (a : Byte) (vs : List Byte) :
    (memWriteAll m a vs).wf = true := by
  induction vs generalizing m a with
  | nil => exact hm
  | cons v vs ih => exact ih (memWrite_wf hm a v) _

/-! ### Reading after writing -/

theorem cellAt_consCell (m : Memory) (a b : Nat) (v : Byte) (hb : b = a → cellAt m a = unlistedByte) :
    cellAt (consCell a v m) b = if b = a then v else cellAt m b := by
  unfold consCell
  split
  · next hv =>
    split
    · next h => rw [h, hb h, hv]
    · rfl
  · simp only [cellAt, eq_comm]

theorem cellAt_putCell {m : Memory} {lo : Nat} (hm : memWfFrom lo m = true) (a b : Nat) (v : Byte) :
    cellAt (putCell m a v) b = if b = a then v else cellAt m b := by
  induction m generalizing lo with
  | nil => exact cellAt_consCell [] a b v fun _ => rfl
  | cons c rest ih =>
    obtain ⟨k, w⟩ := c
    have h := memWfFrom_cons.mp hm
    unfold putCell
    split
    · next hak =>
      refine cellAt_consCell _ a b v fun _ => ?_
      exact cellAt_of_lt (memWfFrom_cons.mpr ⟨Nat.le_refl k, h.2⟩) hak
    · split
      · next hk =>
        subst hk
        rw [cellAt_consCell rest a b v fun _ => cellAt_of_lt h.2.2.2 (Nat.lt_succ_self a)]
        by_cases hb : b = a
        · simp [hb]
        · simp [hb, cellAt, Ne.symm hb]
      · next hk =>
        simp only [cellAt, ih h.2.2.2]
        by_cases hb : k = b
        · subst hb; simp [Ne.symm hk]
        · simp [hb]

/-- `MemRead` after `MemWrite` (20_memory.md R51): the stored byte at its own address, every other cell as before. -/
theorem memRead_memWrite {m : Memory} (hm : m.wf = true) (a b v : Byte) :
    memRead (memWrite m a v) b = if b = a then v else memRead m b := by
  simp only [memRead, memWrite]
  rw [cellAt_putCell hm]
  simp only [BitVec.toNat_inj]

/-- The bytes a write of consecutive bytes leaves alone. -/
theorem memRead_memWriteAll_of_not {m : Memory} (hm : m.wf = true) (a b : Byte) (vs : List Byte)
    (h : ∀ i < vs.length, b ≠ a + BitVec.ofNat 8 i) : memRead (memWriteAll m a vs) b = memRead m b := by
  induction vs generalizing m a with
  | nil => rfl
  | cons v vs ih =>
    rw [memWriteAll, ih (memWrite_wf hm a v), memRead_memWrite hm, if_neg]
    · simpa using h 0 (by simp)
    · intro i hi
      have := h (i + 1) (by simpa using hi)
      rwa [BitVec.ofNat_add, BitVec.add_comm (BitVec.ofNat 8 i), ← BitVec.add_assoc] at this

end Sys2Proof.Machine
end

