-- ==== Sys2Proof/Laws/State.lean ====
section
/-! SUPPORT. One lemma per field per update of State, each true by rfl, so that no proof unfolds a record update. -/

namespace Sys2Proof.Machine

variable (s : State)

/-! ### setRegs -/

@[simp] theorem State.setRegs_regs (v : Regs) : (s.setRegs v).regs = v := rfl
@[simp] theorem State.setRegs_iar (v : Regs) : (s.setRegs v).iar = s.iar := rfl
@[simp] theorem State.setRegs_mar (v : Regs) : (s.setRegs v).mar = s.mar := rfl
@[simp] theorem State.setRegs_ir (v : Regs) : (s.setRegs v).ir = s.ir := rfl
@[simp] theorem State.setRegs_out (v : Regs) : (s.setRegs v).out = s.out := rfl
@[simp] theorem State.setRegs_sp (v : Regs) : (s.setRegs v).sp = s.sp := rfl
@[simp] theorem State.setRegs_int (v : Regs) : (s.setRegs v).int = s.int := rfl
@[simp] theorem State.setRegs_flags (v : Regs) : (s.setRegs v).flags = s.flags := rfl
@[simp] theorem State.setRegs_iack (v : Regs) : (s.setRegs v).iack = s.iack := rfl
@[simp] theorem State.setRegs_halted (v : Regs) : (s.setRegs v).halted = s.halted := rfl
@[simp] theorem State.setRegs_fault (v : Regs) : (s.setRegs v).fault = s.fault := rfl
@[simp] theorem State.setRegs_mem (v : Regs) : (s.setRegs v).mem = s.mem := rfl
@[simp] theorem State.setRegs_kbuf (v : Regs) : (s.setRegs v).kbuf = s.kbuf := rfl
@[simp] theorem State.setRegs_pix (v : Regs) : (s.setRegs v).pix = s.pix := rfl
@[simp] theorem State.setRegs_env (v : Regs) : (s.setRegs v).env = s.env := rfl

/-! ### setIar -/

@[simp] theorem State.setIar_regs (v : Byte) : (s.setIar v).regs = s.regs := rfl
@[simp] theorem State.setIar_iar (v : Byte) : (s.setIar v).iar = v := rfl
@[simp] theorem State.setIar_mar (v : Byte) : (s.setIar v).mar = s.mar := rfl
@[simp] theorem State.setIar_ir (v : Byte) : (s.setIar v).ir = s.ir := rfl
@[simp] theorem State.setIar_out (v : Byte) : (s.setIar v).out = s.out := rfl
@[simp] theorem State.setIar_sp (v : Byte) : (s.setIar v).sp = s.sp := rfl
@[simp] theorem State.setIar_int (v : Byte) : (s.setIar v).int = s.int := rfl
@[simp] theorem State.setIar_flags (v : Byte) : (s.setIar v).flags = s.flags := rfl
@[simp] theorem State.setIar_iack (v : Byte) : (s.setIar v).iack = s.iack := rfl
@[simp] theorem State.setIar_halted (v : Byte) : (s.setIar v).halted = s.halted := rfl
@[simp] theorem State.setIar_fault (v : Byte) : (s.setIar v).fault = s.fault := rfl
@[simp] theorem State.setIar_mem (v : Byte) : (s.setIar v).mem = s.mem := rfl
@[simp] theorem State.setIar_kbuf (v : Byte) : (s.setIar v).kbuf = s.kbuf := rfl
@[simp] theorem State.setIar_pix (v : Byte) : (s.setIar v).pix = s.pix := rfl
@[simp] theorem State.setIar_env (v : Byte) : (s.setIar v).env = s.env := rfl

/-! ### setMar -/

@[simp] theorem State.setMar_regs (v : Byte) : (s.setMar v).regs = s.regs := rfl
@[simp] theorem State.setMar_iar (v : Byte) : (s.setMar v).iar = s.iar := rfl
@[simp] theorem State.setMar_mar (v : Byte) : (s.setMar v).mar = v := rfl
@[simp] theorem State.setMar_ir (v : Byte) : (s.setMar v).ir = s.ir := rfl
@[simp] theorem State.setMar_out (v : Byte) : (s.setMar v).out = s.out := rfl
@[simp] theorem State.setMar_sp (v : Byte) : (s.setMar v).sp = s.sp := rfl
@[simp] theorem State.setMar_int (v : Byte) : (s.setMar v).int = s.int := rfl
@[simp] theorem State.setMar_flags (v : Byte) : (s.setMar v).flags = s.flags := rfl
@[simp] theorem State.setMar_iack (v : Byte) : (s.setMar v).iack = s.iack := rfl
@[simp] theorem State.setMar_halted (v : Byte) : (s.setMar v).halted = s.halted := rfl
@[simp] theorem State.setMar_fault (v : Byte) : (s.setMar v).fault = s.fault := rfl
@[simp] theorem State.setMar_mem (v : Byte) : (s.setMar v).mem = s.mem := rfl
@[simp] theorem State.setMar_kbuf (v : Byte) : (s.setMar v).kbuf = s.kbuf := rfl
@[simp] theorem State.setMar_pix (v : Byte) : (s.setMar v).pix = s.pix := rfl
@[simp] theorem State.setMar_env (v : Byte) : (s.setMar v).env = s.env := rfl

/-! ### setIr -/

@[simp] theorem State.setIr_regs (v : Byte) : (s.setIr v).regs = s.regs := rfl
@[simp] theorem State.setIr_iar (v : Byte) : (s.setIr v).iar = s.iar := rfl
@[simp] theorem State.setIr_mar (v : Byte) : (s.setIr v).mar = s.mar := rfl
@[simp] theorem State.setIr_ir (v : Byte) : (s.setIr v).ir = v := rfl
@[simp] theorem State.setIr_out (v : Byte) : (s.setIr v).out = s.out := rfl
@[simp] theorem State.setIr_sp (v : Byte) : (s.setIr v).sp = s.sp := rfl
@[simp] theorem State.setIr_int (v : Byte) : (s.setIr v).int = s.int := rfl
@[simp] theorem State.setIr_flags (v : Byte) : (s.setIr v).flags = s.flags := rfl
@[simp] theorem State.setIr_iack (v : Byte) : (s.setIr v).iack = s.iack := rfl
@[simp] theorem State.setIr_halted (v : Byte) : (s.setIr v).halted = s.halted := rfl
@[simp] theorem State.setIr_fault (v : Byte) : (s.setIr v).fault = s.fault := rfl
@[simp] theorem State.setIr_mem (v : Byte) : (s.setIr v).mem = s.mem := rfl
@[simp] theorem State.setIr_kbuf (v : Byte) : (s.setIr v).kbuf = s.kbuf := rfl
@[simp] theorem State.setIr_pix (v : Byte) : (s.setIr v).pix = s.pix := rfl
@[simp] theorem State.setIr_env (v : Byte) : (s.setIr v).env = s.env := rfl

/-! ### setSp -/

@[simp] theorem State.setSp_regs (v : Byte) : (s.setSp v).regs = s.regs := rfl
@[simp] theorem State.setSp_iar (v : Byte) : (s.setSp v).iar = s.iar := rfl
@[simp] theorem State.setSp_mar (v : Byte) : (s.setSp v).mar = s.mar := rfl
@[simp] theorem State.setSp_ir (v : Byte) : (s.setSp v).ir = s.ir := rfl
@[simp] theorem State.setSp_out (v : Byte) : (s.setSp v).out = s.out := rfl
@[simp] theorem State.setSp_sp (v : Byte) : (s.setSp v).sp = v := rfl
@[simp] theorem State.setSp_int (v : Byte) : (s.setSp v).int = s.int := rfl
@[simp] theorem State.setSp_flags (v : Byte) : (s.setSp v).flags = s.flags := rfl
@[simp] theorem State.setSp_iack (v : Byte) : (s.setSp v).iack = s.iack := rfl
@[simp] theorem State.setSp_halted (v : Byte) : (s.setSp v).halted = s.halted := rfl
@[simp] theorem State.setSp_fault (v : Byte) : (s.setSp v).fault = s.fault := rfl
@[simp] theorem State.setSp_mem (v : Byte) : (s.setSp v).mem = s.mem := rfl
@[simp] theorem State.setSp_kbuf (v : Byte) : (s.setSp v).kbuf = s.kbuf := rfl
@[simp] theorem State.setSp_pix (v : Byte) : (s.setSp v).pix = s.pix := rfl
@[simp] theorem State.setSp_env (v : Byte) : (s.setSp v).env = s.env := rfl

/-! ### setInt -/

@[simp] theorem State.setInt_regs (v : Byte) : (s.setInt v).regs = s.regs := rfl
@[simp] theorem State.setInt_iar (v : Byte) : (s.setInt v).iar = s.iar := rfl
@[simp] theorem State.setInt_mar (v : Byte) : (s.setInt v).mar = s.mar := rfl
@[simp] theorem State.setInt_ir (v : Byte) : (s.setInt v).ir = s.ir := rfl
@[simp] theorem State.setInt_out (v : Byte) : (s.setInt v).out = s.out := rfl
@[simp] theorem State.setInt_sp (v : Byte) : (s.setInt v).sp = s.sp := rfl
@[simp] theorem State.setInt_int (v : Byte) : (s.setInt v).int = v := rfl
@[simp] theorem State.setInt_flags (v : Byte) : (s.setInt v).flags = s.flags := rfl
@[simp] theorem State.setInt_iack (v : Byte) : (s.setInt v).iack = s.iack := rfl
@[simp] theorem State.setInt_halted (v : Byte) : (s.setInt v).halted = s.halted := rfl
@[simp] theorem State.setInt_fault (v : Byte) : (s.setInt v).fault = s.fault := rfl
@[simp] theorem State.setInt_mem (v : Byte) : (s.setInt v).mem = s.mem := rfl
@[simp] theorem State.setInt_kbuf (v : Byte) : (s.setInt v).kbuf = s.kbuf := rfl
@[simp] theorem State.setInt_pix (v : Byte) : (s.setInt v).pix = s.pix := rfl
@[simp] theorem State.setInt_env (v : Byte) : (s.setInt v).env = s.env := rfl

/-! ### setFlags -/

@[simp] theorem State.setFlags_regs (v : Flags) : (s.setFlags v).regs = s.regs := rfl
@[simp] theorem State.setFlags_iar (v : Flags) : (s.setFlags v).iar = s.iar := rfl
@[simp] theorem State.setFlags_mar (v : Flags) : (s.setFlags v).mar = s.mar := rfl
@[simp] theorem State.setFlags_ir (v : Flags) : (s.setFlags v).ir = s.ir := rfl
@[simp] theorem State.setFlags_out (v : Flags) : (s.setFlags v).out = s.out := rfl
@[simp] theorem State.setFlags_sp (v : Flags) : (s.setFlags v).sp = s.sp := rfl
@[simp] theorem State.setFlags_int (v : Flags) : (s.setFlags v).int = s.int := rfl
@[simp] theorem State.setFlags_flags (v : Flags) : (s.setFlags v).flags = v := rfl
@[simp] theorem State.setFlags_iack (v : Flags) : (s.setFlags v).iack = s.iack := rfl
@[simp] theorem State.setFlags_halted (v : Flags) : (s.setFlags v).halted = s.halted := rfl
@[simp] theorem State.setFlags_fault (v : Flags) : (s.setFlags v).fault = s.fault := rfl
@[simp] theorem State.setFlags_mem (v : Flags) : (s.setFlags v).mem = s.mem := rfl
@[simp] theorem State.setFlags_kbuf (v : Flags) : (s.setFlags v).kbuf = s.kbuf := rfl
@[simp] theorem State.setFlags_pix (v : Flags) : (s.setFlags v).pix = s.pix := rfl
@[simp] theorem State.setFlags_env (v : Flags) : (s.setFlags v).env = s.env := rfl

/-! ### setIack -/

@[simp] theorem State.setIack_regs (v : Bool) : (s.setIack v).regs = s.regs := rfl
@[simp] theorem State.setIack_iar (v : Bool) : (s.setIack v).iar = s.iar := rfl
@[simp] theorem State.setIack_mar (v : Bool) : (s.setIack v).mar = s.mar := rfl
@[simp] theorem State.setIack_ir (v : Bool) : (s.setIack v).ir = s.ir := rfl
@[simp] theorem State.setIack_out (v : Bool) : (s.setIack v).out = s.out := rfl
@[simp] theorem State.setIack_sp (v : Bool) : (s.setIack v).sp = s.sp := rfl
@[simp] theorem State.setIack_int (v : Bool) : (s.setIack v).int = s.int := rfl
@[simp] theorem State.setIack_flags (v : Bool) : (s.setIack v).flags = s.flags := rfl
@[simp] theorem State.setIack_iack (v : Bool) : (s.setIack v).iack = v := rfl
@[simp] theorem State.setIack_halted (v : Bool) : (s.setIack v).halted = s.halted := rfl
@[simp] theorem State.setIack_fault (v : Bool) : (s.setIack v).fault = s.fault := rfl
@[simp] theorem State.setIack_mem (v : Bool) : (s.setIack v).mem = s.mem := rfl
@[simp] theorem State.setIack_kbuf (v : Bool) : (s.setIack v).kbuf = s.kbuf := rfl
@[simp] theorem State.setIack_pix (v : Bool) : (s.setIack v).pix = s.pix := rfl
@[simp] theorem State.setIack_env (v : Bool) : (s.setIack v).env = s.env := rfl

/-! ### setHalted -/

@[simp] theorem State.setHalted_regs (v : Bool) : (s.setHalted v).regs = s.regs := rfl
@[simp] theorem State.setHalted_iar (v : Bool) : (s.setHalted v).iar = s.iar := rfl
@[simp] theorem State.setHalted_mar (v : Bool) : (s.setHalted v).mar = s.mar := rfl
@[simp] theorem State.setHalted_ir (v : Bool) : (s.setHalted v).ir = s.ir := rfl
@[simp] theorem State.setHalted_out (v : Bool) : (s.setHalted v).out = s.out := rfl
@[simp] theorem State.setHalted_sp (v : Bool) : (s.setHalted v).sp = s.sp := rfl
@[simp] theorem State.setHalted_int (v : Bool) : (s.setHalted v).int = s.int := rfl
@[simp] theorem State.setHalted_flags (v : Bool) : (s.setHalted v).flags = s.flags := rfl
@[simp] theorem State.setHalted_iack (v : Bool) : (s.setHalted v).iack = s.iack := rfl
@[simp] theorem State.setHalted_halted (v : Bool) : (s.setHalted v).halted = v := rfl
@[simp] theorem State.setHalted_fault (v : Bool) : (s.setHalted v).fault = s.fault := rfl
@[simp] theorem State.setHalted_mem (v : Bool) : (s.setHalted v).mem = s.mem := rfl
@[simp] theorem State.setHalted_kbuf (v : Bool) : (s.setHalted v).kbuf = s.kbuf := rfl
@[simp] theorem State.setHalted_pix (v : Bool) : (s.setHalted v).pix = s.pix := rfl
@[simp] theorem State.setHalted_env (v : Bool) : (s.setHalted v).env = s.env := rfl

/-! ### setFault -/

@[simp] theorem State.setFault_regs (v : Option FaultRecord) : (s.setFault v).regs = s.regs := rfl
@[simp] theorem State.setFault_iar (v : Option FaultRecord) : (s.setFault v).iar = s.iar := rfl
@[simp] theorem State.setFault_mar (v : Option FaultRecord) : (s.setFault v).mar = s.mar := rfl
@[simp] theorem State.setFault_ir (v : Option FaultRecord) : (s.setFault v).ir = s.ir := rfl
@[simp] theorem State.setFault_out (v : Option FaultRecord) : (s.setFault v).out = s.out := rfl
@[simp] theorem State.setFault_sp (v : Option FaultRecord) : (s.setFault v).sp = s.sp := rfl
@[simp] theorem State.setFault_int (v : Option FaultRecord) : (s.setFault v).int = s.int := rfl
@[simp] theorem State.setFault_flags (v : Option FaultRecord) : (s.setFault v).flags = s.flags := rfl
@[simp] theorem State.setFault_iack (v : Option FaultRecord) : (s.setFault v).iack = s.iack := rfl
@[simp] theorem State.setFault_halted (v : Option FaultRecord) : (s.setFault v).halted = s.halted := rfl
@[simp] theorem State.setFault_fault (v : Option FaultRecord) : (s.setFault v).fault = v := rfl
@[simp] theorem State.setFault_mem (v : Option FaultRecord) : (s.setFault v).mem = s.mem := rfl
@[simp] theorem State.setFault_kbuf (v : Option FaultRecord) : (s.setFault v).kbuf = s.kbuf := rfl
@[simp] theorem State.setFault_pix (v : Option FaultRecord) : (s.setFault v).pix = s.pix := rfl
@[simp] theorem State.setFault_env (v : Option FaultRecord) : (s.setFault v).env = s.env := rfl

/-! ### setMem -/

@[simp] theorem State.setMem_regs (v : Memory) : (s.setMem v).regs = s.regs := rfl
@[simp] theorem State.setMem_iar (v : Memory) : (s.setMem v).iar = s.iar := rfl
@[simp] theorem State.setMem_mar (v : Memory) : (s.setMem v).mar = s.mar := rfl
@[simp] theorem State.setMem_ir (v : Memory) : (s.setMem v).ir = s.ir := rfl
@[simp] theorem State.setMem_out (v : Memory) : (s.setMem v).out = s.out := rfl
@[simp] theorem State.setMem_sp (v : Memory) : (s.setMem v).sp = s.sp := rfl
@[simp] theorem State.setMem_int (v : Memory) : (s.setMem v).int = s.int := rfl
@[simp] theorem State.setMem_flags (v : Memory) : (s.setMem v).flags = s.flags := rfl
@[simp] theorem State.setMem_iack (v : Memory) : (s.setMem v).iack = s.iack := rfl
@[simp] theorem State.setMem_halted (v : Memory) : (s.setMem v).halted = s.halted := rfl
@[simp] theorem State.setMem_fault (v : Memory) : (s.setMem v).fault = s.fault := rfl
@[simp] theorem State.setMem_mem (v : Memory) : (s.setMem v).mem = v := rfl
@[simp] theorem State.setMem_kbuf (v : Memory) : (s.setMem v).kbuf = s.kbuf := rfl
@[simp] theorem State.setMem_pix (v : Memory) : (s.setMem v).pix = s.pix := rfl
@[simp] theorem State.setMem_env (v : Memory) : (s.setMem v).env = s.env := rfl

/-! ### setKbuf -/

@[simp] theorem State.setKbuf_regs (v : List Byte) : (s.setKbuf v).regs = s.regs := rfl
@[simp] theorem State.setKbuf_iar (v : List Byte) : (s.setKbuf v).iar = s.iar := rfl
@[simp] theorem State.setKbuf_mar (v : List Byte) : (s.setKbuf v).mar = s.mar := rfl
@[simp] theorem State.setKbuf_ir (v : List Byte) : (s.setKbuf v).ir = s.ir := rfl
@[simp] theorem State.setKbuf_out (v : List Byte) : (s.setKbuf v).out = s.out := rfl
@[simp] theorem State.setKbuf_sp (v : List Byte) : (s.setKbuf v).sp = s.sp := rfl
@[simp] theorem State.setKbuf_int (v : List Byte) : (s.setKbuf v).int = s.int := rfl
@[simp] theorem State.setKbuf_flags (v : List Byte) : (s.setKbuf v).flags = s.flags := rfl
@[simp] theorem State.setKbuf_iack (v : List Byte) : (s.setKbuf v).iack = s.iack := rfl
@[simp] theorem State.setKbuf_halted (v : List Byte) : (s.setKbuf v).halted = s.halted := rfl
@[simp] theorem State.setKbuf_fault (v : List Byte) : (s.setKbuf v).fault = s.fault := rfl
@[simp] theorem State.setKbuf_mem (v : List Byte) : (s.setKbuf v).mem = s.mem := rfl
@[simp] theorem State.setKbuf_kbuf (v : List Byte) : (s.setKbuf v).kbuf = v := rfl
@[simp] theorem State.setKbuf_pix (v : List Byte) : (s.setKbuf v).pix = s.pix := rfl
@[simp] theorem State.setKbuf_env (v : List Byte) : (s.setKbuf v).env = s.env := rfl

/-! ### setPix -/

@[simp] theorem State.setPix_regs (v : List Byte) : (s.setPix v).regs = s.regs := rfl
@[simp] theorem State.setPix_iar (v : List Byte) : (s.setPix v).iar = s.iar := rfl
@[simp] theorem State.setPix_mar (v : List Byte) : (s.setPix v).mar = s.mar := rfl
@[simp] theorem State.setPix_ir (v : List Byte) : (s.setPix v).ir = s.ir := rfl
@[simp] theorem State.setPix_out (v : List Byte) : (s.setPix v).out = s.out := rfl
@[simp] theorem State.setPix_sp (v : List Byte) : (s.setPix v).sp = s.sp := rfl
@[simp] theorem State.setPix_int (v : List Byte) : (s.setPix v).int = s.int := rfl
@[simp] theorem State.setPix_flags (v : List Byte) : (s.setPix v).flags = s.flags := rfl
@[simp] theorem State.setPix_iack (v : List Byte) : (s.setPix v).iack = s.iack := rfl
@[simp] theorem State.setPix_halted (v : List Byte) : (s.setPix v).halted = s.halted := rfl
@[simp] theorem State.setPix_fault (v : List Byte) : (s.setPix v).fault = s.fault := rfl
@[simp] theorem State.setPix_mem (v : List Byte) : (s.setPix v).mem = s.mem := rfl
@[simp] theorem State.setPix_kbuf (v : List Byte) : (s.setPix v).kbuf = s.kbuf := rfl
@[simp] theorem State.setPix_pix (v : List Byte) : (s.setPix v).pix = v := rfl
@[simp] theorem State.setPix_env (v : List Byte) : (s.setPix v).env = s.env := rfl

/-! ### setImage -/

@[simp] theorem State.setImage_regs (v : List Byte) : (s.setImage v).regs = s.regs := rfl
@[simp] theorem State.setImage_iar (v : List Byte) : (s.setImage v).iar = s.iar := rfl
@[simp] theorem State.setImage_mar (v : List Byte) : (s.setImage v).mar = s.mar := rfl
@[simp] theorem State.setImage_ir (v : List Byte) : (s.setImage v).ir = s.ir := rfl
@[simp] theorem State.setImage_out (v : List Byte) : (s.setImage v).out = s.out := rfl
@[simp] theorem State.setImage_sp (v : List Byte) : (s.setImage v).sp = s.sp := rfl
@[simp] theorem State.setImage_int (v : List Byte) : (s.setImage v).int = s.int := rfl
@[simp] theorem State.setImage_flags (v : List Byte) : (s.setImage v).flags = s.flags := rfl
@[simp] theorem State.setImage_iack (v : List Byte) : (s.setImage v).iack = s.iack := rfl
@[simp] theorem State.setImage_halted (v : List Byte) : (s.setImage v).halted = s.halted := rfl
@[simp] theorem State.setImage_fault (v : List Byte) : (s.setImage v).fault = s.fault := rfl
@[simp] theorem State.setImage_mem (v : List Byte) : (s.setImage v).mem = s.mem := rfl
@[simp] theorem State.setImage_kbuf (v : List Byte) : (s.setImage v).kbuf = s.kbuf := rfl
@[simp] theorem State.setImage_pix (v : List Byte) : (s.setImage v).pix = s.pix := rfl
@[simp] theorem State.setImage_env_cfg (v : List Byte) : (s.setImage v).env.cfg = s.env.cfg := rfl
@[simp] theorem State.setImage_env_image (v : List Byte) : (s.setImage v).env.image = v := rfl
@[simp] theorem State.setImage_env_calls (v : List Byte) : (s.setImage v).env.calls = s.env.calls := rfl
@[simp] theorem State.setImage_env_draws (v : List Byte) : (s.setImage v).env.draws = s.env.draws := rfl
@[simp] theorem State.setImage_env_reply (v : List Byte) : (s.setImage v).env.reply = s.env.reply := rfl

/-! ### setCalls -/

@[simp] theorem State.setCalls_regs (v : List HostCall) : (s.setCalls v).regs = s.regs := rfl
@[simp] theorem State.setCalls_iar (v : List HostCall) : (s.setCalls v).iar = s.iar := rfl
@[simp] theorem State.setCalls_mar (v : List HostCall) : (s.setCalls v).mar = s.mar := rfl
@[simp] theorem State.setCalls_ir (v : List HostCall) : (s.setCalls v).ir = s.ir := rfl
@[simp] theorem State.setCalls_out (v : List HostCall) : (s.setCalls v).out = s.out := rfl
@[simp] theorem State.setCalls_sp (v : List HostCall) : (s.setCalls v).sp = s.sp := rfl
@[simp] theorem State.setCalls_int (v : List HostCall) : (s.setCalls v).int = s.int := rfl
@[simp] theorem State.setCalls_flags (v : List HostCall) : (s.setCalls v).flags = s.flags := rfl
@[simp] theorem State.setCalls_iack (v : List HostCall) : (s.setCalls v).iack = s.iack := rfl
@[simp] theorem State.setCalls_halted (v : List HostCall) : (s.setCalls v).halted = s.halted := rfl
@[simp] theorem State.setCalls_fault (v : List HostCall) : (s.setCalls v).fault = s.fault := rfl
@[simp] theorem State.setCalls_mem (v : List HostCall) : (s.setCalls v).mem = s.mem := rfl
@[simp] theorem State.setCalls_kbuf (v : List HostCall) : (s.setCalls v).kbuf = s.kbuf := rfl
@[simp] theorem State.setCalls_pix (v : List HostCall) : (s.setCalls v).pix = s.pix := rfl
@[simp] theorem State.setCalls_env_cfg (v : List HostCall) : (s.setCalls v).env.cfg = s.env.cfg := rfl
@[simp] theorem State.setCalls_env_image (v : List HostCall) : (s.setCalls v).env.image = s.env.image := rfl
@[simp] theorem State.setCalls_env_calls (v : List HostCall) : (s.setCalls v).env.calls = v := rfl
@[simp] theorem State.setCalls_env_draws (v : List HostCall) : (s.setCalls v).env.draws = s.env.draws := rfl
@[simp] theorem State.setCalls_env_reply (v : List HostCall) : (s.setCalls v).env.reply = s.env.reply := rfl

/-! ### setDraws -/

@[simp] theorem State.setDraws_regs (v : Nat) : (s.setDraws v).regs = s.regs := rfl
@[simp] theorem State.setDraws_iar (v : Nat) : (s.setDraws v).iar = s.iar := rfl
@[simp] theorem State.setDraws_mar (v : Nat) : (s.setDraws v).mar = s.mar := rfl
@[simp] theorem State.setDraws_ir (v : Nat) : (s.setDraws v).ir = s.ir := rfl
@[simp] theorem State.setDraws_out (v : Nat) : (s.setDraws v).out = s.out := rfl
@[simp] theorem State.setDraws_sp (v : Nat) : (s.setDraws v).sp = s.sp := rfl
@[simp] theorem State.setDraws_int (v : Nat) : (s.setDraws v).int = s.int := rfl
@[simp] theorem State.setDraws_flags (v : Nat) : (s.setDraws v).flags = s.flags := rfl
@[simp] theorem State.setDraws_iack (v : Nat) : (s.setDraws v).iack = s.iack := rfl
@[simp] theorem State.setDraws_halted (v : Nat) : (s.setDraws v).halted = s.halted := rfl
@[simp] theorem State.setDraws_fault (v : Nat) : (s.setDraws v).fault = s.fault := rfl
@[simp] theorem State.setDraws_mem (v : Nat) : (s.setDraws v).mem = s.mem := rfl
@[simp] theorem State.setDraws_kbuf (v : Nat) : (s.setDraws v).kbuf = s.kbuf := rfl
@[simp] theorem State.setDraws_pix (v : Nat) : (s.setDraws v).pix = s.pix := rfl
@[simp] theorem State.setDraws_env_cfg (v : Nat) : (s.setDraws v).env.cfg = s.env.cfg := rfl
@[simp] theorem State.setDraws_env_image (v : Nat) : (s.setDraws v).env.image = s.env.image := rfl
@[simp] theorem State.setDraws_env_calls (v : Nat) : (s.setDraws v).env.calls = s.env.calls := rfl
@[simp] theorem State.setDraws_env_draws (v : Nat) : (s.setDraws v).env.draws = v := rfl
@[simp] theorem State.setDraws_env_reply (v : Nat) : (s.setDraws v).env.reply = s.env.reply := rfl

/-! ### setReply -/

@[simp] theorem State.setReply_regs (v : Reply) : (s.setReply v).regs = s.regs := rfl
@[simp] theorem State.setReply_iar (v : Reply) : (s.setReply v).iar = s.iar := rfl
@[simp] theorem State.setReply_mar (v : Reply) : (s.setReply v).mar = s.mar := rfl
@[simp] theorem State.setReply_ir (v : Reply) : (s.setReply v).ir = s.ir := rfl
@[simp] theorem State.setReply_out (v : Reply) : (s.setReply v).out = s.out := rfl
@[simp] theorem State.setReply_sp (v : Reply) : (s.setReply v).sp = s.sp := rfl
@[simp] theorem State.setReply_int (v : Reply) : (s.setReply v).int = s.int := rfl
@[simp] theorem State.setReply_flags (v : Reply) : (s.setReply v).flags = s.flags := rfl
@[simp] theorem State.setReply_iack (v : Reply) : (s.setReply v).iack = s.iack := rfl
@[simp] theorem State.setReply_halted (v : Reply) : (s.setReply v).halted = s.halted := rfl
@[simp] theorem State.setReply_fault (v : Reply) : (s.setReply v).fault = s.fault := rfl
@[simp] theorem State.setReply_mem (v : Reply) : (s.setReply v).mem = s.mem := rfl
@[simp] theorem State.setReply_kbuf (v : Reply) : (s.setReply v).kbuf = s.kbuf := rfl
@[simp] theorem State.setReply_pix (v : Reply) : (s.setReply v).pix = s.pix := rfl
@[simp] theorem State.setReply_env_cfg (v : Reply) : (s.setReply v).env.cfg = s.env.cfg := rfl
@[simp] theorem State.setReply_env_image (v : Reply) : (s.setReply v).env.image = s.env.image := rfl
@[simp] theorem State.setReply_env_calls (v : Reply) : (s.setReply v).env.calls = s.env.calls := rfl
@[simp] theorem State.setReply_env_draws (v : Reply) : (s.setReply v).env.draws = s.env.draws := rfl
@[simp] theorem State.setReply_env_reply (v : Reply) : (s.setReply v).env.reply = v := rfl

end Sys2Proof.Machine
end

