-- ==== Sys2Proof/Laws/Ops.lean ====
section
/-! SUPPORT. One lemma for each shared operation, saying once everything it can do; later proofs cite these and do not
unfold the operation. -/

namespace Sys2Proof.Machine

/-! ### Registers -/

/-- Reading a register after writing one. -/
@[simp] theorem getReg_putReg (g : Regs) (r q : Reg) (v : Byte) :
    getReg (putReg g r v) q = if q = r then v else getReg g q := by
  cases r <;> cases q <;> rfl

/-- Writing a register changes the register file alone. -/
theorem writeReg_eq (r : Reg) (v : Byte) (s : State) : writeReg r v s = s.setRegs (putReg s.regs r v) := rfl

@[simp] theorem readReg_writeReg (r q : Reg) (v : Byte) (s : State) :
    readReg q (writeReg r v s) = if q = r then v else readReg q s := getReg_putReg s.regs r q v

/-! ### Stores, the end of an instruction, faults -/

/-- A store changes memory alone. -/
theorem storeByte_eq (a v : Byte) (s : State) : storeByte a v s = s.setMem (memWrite s.mem a v) := rfl

/-- Falling through changes IAR alone. -/
theorem fallThrough_eq (len : Nat) (s : State) : fallThrough len s = s.setIar (s.iar + BitVec.ofNat 8 len) := rfl

/-- Jumping changes IAR alone. -/
theorem jumpTo_eq (t : Byte) (s : State) : jumpTo t s = s.setIar t := rfl

/-- Raising a fault changes FAULT alone. -/
theorem raiseFault_eq (k : FaultKind) (s : State) : raiseFault k s = s.setFault (some ⟨k, s.iar⟩) := rfl

/-! ### Operand forms -/

/-- A load through a register changes the destination register alone: MAR is restored. -/
theorem loadIndirect_eq (a b : Reg) (s : State) :
    loadIndirect a b s = writeReg b (memRead s.mem (readReg a s)) s := rfl

/-- A store through a register changes memory alone: MAR is restored. -/
theorem storeIndirect_eq (a b : Reg) (s : State) :
    storeIndirect a b s = storeByte (readReg a s) (readReg b s) s := rfl

/-- The store of PUSH changes memory and SP alone. -/
theorem pushByte_eq (v : Byte) (s : State) : pushByte v s = (s.setMem (memWrite s.mem s.sp v)).setSp (s.sp + 1#8) := rfl

/-! ### The ALU -/

/-- The wrapped byte of a natural number (40_alu_unit.md R103, R105). -/
theorem wrapByte_toNat (n : Nat) : (wrapByte (n : Int)).toNat = n % 256 := by
  simp only [wrapByte, BitVec.toNat_ofInt]; omega

/-- The clamped byte of a difference of bytes (40_alu_unit.md R104, R106). -/
theorem clampByte_toNat {w : Int} (h : w ≤ 255) : ((clampByte w).toNat : Int) = max w 0 := by
  simp only [clampByte, BitVec.toNat_ofInt]; omega

/-- Carry: the wide result lies outside CARRY_LO..CARRY_HI (40_alu_unit.md R102). -/
theorem flagsOf_c (cfg : Config) (w : Int) (e l : Bool) :
    (flagsOf cfg w e l).c = true ↔ w < cfg.carryLo ∨ cfg.carryHi < w := by simp [flagsOf]

/-- Sign: the wide result is negative (40_alu_unit.md R102). -/
theorem flagsOf_s (cfg : Config) (w : Int) (e l : Bool) : (flagsOf cfg w e l).s = true ↔ w < 0 := by simp [flagsOf]

/-- Zero: the wide result is zero, or a multiple of 256 when ZERO_AFTER_WRAP (40_alu_unit.md R102). -/
theorem flagsOf_z (cfg : Config) (w : Int) (e l : Bool) :
    (flagsOf cfg w e l).z = true ↔ if cfg.zeroAfterWrap then w % 256 = 0 else w = 0 := by
  simp only [flagsOf]; split <;> simp

/-- A state whose flags are those of a wide result follows it, whatever E and L are. -/
theorem flagsFollow_of_flags {t : State} {cfg : Config} {w : Int} {e l : Bool} (h : t.flags = flagsOf cfg w e l) :
    t.flagsFollow cfg w := by
  unfold State.flagsFollow
  rw [h]
  exact ⟨flagsOf_c .., flagsOf_s .., flagsOf_z ..⟩

/-- The bits of a flag at its position. -/
theorem flagAt_getLsbD : ∀ (b : Bool) (p j : Fin 8), (flagAt b p).getLsbD j = (b && decide (p = j)) := by decide

/-- An arithmetic call of the ALU: its result byte and its flags. -/
theorem runAlu_eq (op : ArithOp) (a b : Byte) (s : State) :
    runAlu op a b s = ⟨arithResult op (arithWide op a b),
      flagsOf s.env.cfg (arithWide op a b) (Config.draw s.env.draws) (Config.draw (s.env.draws + 1))⟩ := rfl

/-- Refreshing the flags changes the flags and the draw counter alone. -/
theorem refreshFlags_eq (f : Flags) (s : State) : refreshFlags f s = (s.setFlags f).setDraws (s.env.draws + 2) := rfl

/-! ### The CPU's step -/

/-- Every instruction of the table answers a next state, in every state. -/
theorem exec_next (i : Instr) (s : State) : ∃ t, exec i s = .next t := by
  cases i <;> simp only [exec, execData, execLd, execSt, execJmp, execJmpr, execInt, execHlt, execCli, execAdd, execSub,
    execInc, execDec, execCmp, execPop, Host.Outcome.next.injEq, exists_eq']
  case jmpif cond imm => unfold execJmpif; split <;> exact ⟨_, rfl⟩
  case push a => unfold execPush; split <;> exact ⟨_, rfl⟩

/-- Fetch changes MAR and IR alone. -/
theorem fetch_eq (s : State) : fetch s = (s.setMar s.iar).setIr (memRead s.mem s.iar) := rfl

/-- The operand fetch changes MAR alone, and only for a row of two bytes. -/
theorem operandFetch_eq (op : Op) (s : State) :
    operandFetch op s = s.setMar (if opLength op = 2 then s.mar + 1#8 else s.mar) := by
  unfold operandFetch; split <;> rfl

/-- Recording the return value of `cycle()` neither makes nor unmakes a next state. -/
theorem finishCycle_next {i : Instr} {o : Host.Outcome State Fault Refusal} {t : State}
    (h : finishCycle i o = .next t) : ∃ u, o = .next u ∧ t = u.setReply (cycleReply i u) := by
  cases o with
  | next u => exact ⟨u, rfl, by simpa [finishCycle] using h.symm⟩
  | fault f => simp [finishCycle] at h
  | refused r => simp [finishCycle] at h

/-- The state an instruction is executed in: MAR and IR as fetch and operand fetch leave them. -/
theorem State.fetched_eq (s : State) (op : Op) : s.fetched op =
    (s.setMar (if opLength op = 2 then s.iar + 1#8 else s.iar)).setIr (memRead s.mem s.iar) := by
  rw [State.fetched, operandFetch_eq]; rfl

/-- The instruction read with the operand byte at MAR is the one read with the byte after the first: a 1-byte row looks
at neither. -/
theorem instrOf_fetched (s : State) (op : Op) : instrOf op (memRead s.mem s.iar) (operandByte (s.fetched op)) =
    instrOf op (memRead s.mem s.iar) (memRead s.mem (s.iar + 1#8)) := by
  rcases opLength_cases op with h | h
  · exact instrOf_of_length_one h ..
  · simp [operandByte, State.fetched_eq, h]

/-- The two bytes from IAR decode to the instruction of their row. -/
theorem decode_nextBytes {m : OpcodeMap} {s : State} {op : Op} (h : decodeOp m (memRead s.mem s.iar) = .ok op) :
    ∃ rest, decode m s.nextBytes =
      .ok (instrOf op (memRead s.mem s.iar) (memRead s.mem (s.iar + 1#8)), rest) := by
  simp only [decode, State.nextBytes, h]
  rcases opLength_cases op with hl | hl
  · rw [if_pos hl, instrOf_of_length_one hl _ 0 (memRead s.mem (s.iar + 1#8))]; exact ⟨_, rfl⟩
  · rw [if_neg (by omega)]; exact ⟨_, rfl⟩

/-- What a step of the CPU can do: it needs `FAULT = none` and `HALTED = 0`, and then either the fetched byte is no
instruction and UnknownOpcode is latched, or the decoded instruction is executed. -/
theorem cycle_cases {s t : State} (h : cycle s = .next t) : s.fault = none ∧ s.halted = false ∧
    ((decodeOp s.env.cfg.opc (memRead s.mem s.iar) = .error .unknownOpcode ∧ t = unknownOpcode (fetch s)) ∨
     (∃ op u, decodeOp s.env.cfg.opc (memRead s.mem s.iar) = .ok op ∧
       exec (instrOf op (memRead s.mem s.iar) (memRead s.mem (s.iar + 1#8))) (s.fetched op) = .next u ∧
       t = u.setReply (cycleReply (instrOf op (memRead s.mem s.iar) (memRead s.mem (s.iar + 1#8))) u))) := by
  unfold cycle at h
  split at h
  · cases h
  · next hf =>
    split at h
    · cases h
    · next hh =>
      refine ⟨hf, by simpa using hh, ?_⟩
      unfold runInstruction at h
      simp only [fetch_eq, State.setIr_env, State.setMar_env, State.setIr_ir] at h
      split at h
      · next e he =>
        refine .inl ⟨by rw [he, decodeOp_error he], by simpa [fetch_eq] using h.symm⟩
      · next op ho =>
        obtain ⟨u, hu, rfl⟩ := finishCycle_next h
        have hir : (operandFetch op ((s.setMar s.iar).setIr (memRead s.mem s.iar))).ir = memRead s.mem s.iar := by
          rw [operandFetch_eq]; rfl
        have hi := instrOf_fetched s op
        rw [State.fetched, fetch_eq] at hi
        rw [hir, hi] at hu ⊢
        exact .inr ⟨op, u, ho, hu, rfl⟩

/-! ### The peripherals -/

/-- The acknowledgement changes KBUF, PIX, IACK and perhaps INT alone. -/
theorem acknowledge_eq (s : State) : acknowledge s = (((s.setKbuf []).setPix (blankScreen s.env.cfg)).setIack false).setInt
    (if s.env.cfg.ackClearsInt then 0#8 else s.int) := by
  unfold acknowledge; split <;> rfl

/-- The screen service does nothing, or raises ScreenIndexOutOfRange, or writes one pixel. -/
theorem screenProcess_cases (s : State) :
    (s.int ≠ s.env.cfg.intScreen ∧ screenProcess s = s) ∨
    (s.int = s.env.cfg.intScreen ∧ s.env.cfg.pixels ≤ pixelIndex s ∧
      screenProcess s = raiseFault .screenIndexOutOfRange s) ∨
    (s.int = s.env.cfg.intScreen ∧ pixelIndex s < s.env.cfg.pixels ∧
      screenProcess s = s.setPix (s.pix.set (pixelIndex s) (readReg s.env.cfg.scrColorReg s))) := by
  unfold screenProcess
  split
  · next h =>
    split
    · next h' => exact .inr (.inl ⟨h, h', rfl⟩)
    · next h' => exact .inr (.inr ⟨h, by omega, rfl⟩)
  · next h => exact .inl ⟨h, rfl⟩

/-- The keyboard service does nothing, or drains the buffer into memory and reports in two registers. -/
theorem keyboardProcess_cases (s : State) :
    (¬(s.int = s.env.cfg.intKeyboard ∧ 0 < s.kbuf.length) ∧ keyboardProcess s = s) ∨
    (s.int = s.env.cfg.intKeyboard ∧ 0 < s.kbuf.length ∧
      keyboardProcess s = ((s.setMem (memWriteAll s.mem s.env.cfg.kbdBase s.kbuf)).setRegs
        (putReg (putReg s.regs s.env.cfg.kbdAddrReg s.env.cfg.kbdBase) s.env.cfg.kbdCountReg
          (BitVec.ofNat 8 s.kbuf.length))).setKbuf []) := by
  unfold keyboardProcess
  split
  · next h => exact .inr ⟨h.1, h.2, rfl⟩
  · next h => exact .inl ⟨h, rfl⟩

/-- A delivery changes KBUF and the reply alone. -/
theorem deliver_eq (p : Peripheral) (v : Byte) (s : State) : deliver p v s =
    (s.setKbuf (if p = .keyboard ∧ s.kbuf.length < s.env.cfg.kbdMax then s.kbuf ++ [v] else s.kbuf)).setReply
      .nothing := by
  cases p
  · simp only [deliver, keyboardUpdate, true_and]; split <;> rfl
  · rfl

/-- What a tick can do: it needs `FAULT = none`, and then the services run and the reply says whether one faulted. -/
theorem tick_cases {s t : State} (h : tick s = .next t) :
    s.fault = none ∧ t = (serviceAll s).setReply (callReply (serviceAll s).fault) := by
  unfold tick at h
  split at h
  · cases h
  · next hf => exact ⟨hf, by simpa using h.symm⟩

/-! ### Boot, reset, the step -/

/-- What boot can do: raise ImageTooLarge, or load the image. -/
theorem boot_cases (img : List Byte) (s : State) :
    (s.env.cfg.progCap < img.length ∧
      boot img s = (raiseFault .imageTooLarge (s.setImage img)).setReply (.error ⟨.imageTooLarge, s.iar⟩)) ∨
    (img.length ≤ s.env.cfg.progCap ∧ boot img s = (loadImage img (s.setImage img)).setReply .ok) := by
  unfold boot
  split
  · next h => exact .inl ⟨h, rfl⟩
  · next h => exact .inr ⟨by omega, rfl⟩

/-- What a step can do: one case for each entry point that the host's next call may name. -/
theorem step_cases {s t : State} (h : step s = .next t) : ∃ rest,
    (((s.env.calls = [] ∧ rest = []) ∨ s.env.calls = .cycle :: rest) ∧ cycle (s.setCalls rest) = .next t) ∨
    (s.env.calls = .tick :: rest ∧ tick (s.setCalls rest) = .next t) ∨
    (∃ p v, s.env.calls = .deliver p v :: rest ∧ t = deliver p v (s.setCalls rest)) ∨
    (∃ img, s.env.calls = .boot img :: rest ∧ t = boot img (s.setCalls rest)) ∨
    (s.env.calls = .reset :: rest ∧ t = resetMachine (s.setCalls rest)) := by
  unfold step at h
  cases hc : s.env.calls with
  | nil =>
    rw [hc] at h
    exact ⟨[], .inl ⟨.inl ⟨rfl, rfl⟩, h⟩⟩
  | cons c rest =>
    rw [hc] at h
    refine ⟨rest, ?_⟩
    cases c with
    | cycle => exact .inl ⟨.inr rfl, h⟩
    | tick => exact .inr (.inl ⟨rfl, h⟩)
    | deliver p v => exact .inr (.inr (.inl ⟨p, v, rfl, by simpa [nextCall, hostCall] using h.symm⟩))
    | boot img => exact .inr (.inr (.inr (.inl ⟨img, rfl, by simpa [nextCall, hostCall] using h.symm⟩)))
    | reset => exact .inr (.inr (.inr (.inr ⟨rfl, by simpa [nextCall, hostCall] using h.symm⟩)))

end Sys2Proof.Machine
end

