-- ==== Sys2Proof/Laws/PerInstr.lean ====
section
/-! SUPPORT. Families of statements made per instruction: the length of an encoding (30_encoding.md R79, R88), and the
match and mask of the instruction's row in spec/opcode_table.json. -/

namespace Sys2Proof.Laws

/-! ### The length of an encoding -/

/-- An instruction is encoded in as many bytes as its row's length says (30_encoding.md R79, R88). -/
def EncodeLength.Statement (i : Instr) : Prop := ∀ m : OpcodeMap, (encode m i).length = instrLength i

namespace EncodeLength
theorem data (a : Reg) (imm : Byte) : Statement (.data a imm) := fun _ => rfl
theorem ld (a b : Reg) : Statement (.ld a b) := fun _ => rfl
theorem st (a b : Reg) : Statement (.st a b) := fun _ => rfl
theorem jmp (imm : Byte) : Statement (.jmp imm) := fun _ => rfl
theorem jmpr (a : Reg) : Statement (.jmpr a) := fun _ => rfl
theorem jmpif (cond : BitVec 4) (imm : Byte) : Statement (.jmpif cond imm) := fun _ => rfl
theorem int (imm : Byte) : Statement (.int imm) := fun _ => rfl
theorem hlt : Statement .hlt := fun _ => rfl
theorem cli : Statement .cli := fun _ => rfl
theorem add (a b : Reg) : Statement (.add a b) := fun _ => rfl
theorem sub (a b : Reg) : Statement (.sub a b) := fun _ => rfl
theorem inc (a : Reg) : Statement (.inc a) := fun _ => rfl
theorem dec (a : Reg) : Statement (.dec a) := fun _ => rfl
theorem cmp (a b : Reg) : Statement (.cmp a b) := fun _ => rfl
theorem push (a : Reg) : Statement (.push a) := fun _ => rfl
theorem pop (a : Reg) : Statement (.pop a) := fun _ => rfl
end EncodeLength

/-! ### The opcode table's match and mask -/

/-- The `mask` and `match` of each row, as spec/opcode_table.json has them. -/
def tableRow : Op → Byte × Byte
  | .data => (0xF0#8, 0x00#8)
  | .ld => (0xF0#8, 0x10#8)
  | .st => (0xF0#8, 0x20#8)
  | .jmp => (0xF0#8, 0x30#8)
  | .jmpr => (0xF0#8, 0x40#8)
  | .jmpif => (0xF0#8, 0x50#8)
  | .int => (0xF0#8, 0x60#8)
  | .hlt => (0xFF#8, 0x70#8)
  | .cli => (0xFF#8, 0x71#8)
  | .add => (0xF0#8, 0x80#8)
  | .sub => (0xF0#8, 0x90#8)
  | .inc => (0xF0#8, 0xA0#8)
  | .dec => (0xF0#8, 0xB0#8)
  | .cmp => (0xF0#8, 0xC0#8)
  | .push => (0xF0#8, 0xD0#8)
  | .pop => (0xF0#8, 0xE0#8)

/-- The first byte of an encoding with the default opcode numbers, masked by its row's mask, is its row's match. -/
def TableRow.Statement (i : Instr) : Prop :=
  ((encode defaultOpcodes i).headD 0#8) &&& (tableRow i.op).1 = (tableRow i.op).2

namespace TableRow
theorem data (a : Reg) (imm : Byte) : Statement (.data a imm) := by
  simp only [Statement, encode, Instr.op, List.headD_cons]; cases a <;> decide
theorem ld (a b : Reg) : Statement (.ld a b) := by
  unfold Statement; cases a <;> cases b <;> decide
theorem st (a b : Reg) : Statement (.st a b) := by
  unfold Statement; cases a <;> cases b <;> decide
theorem jmp (imm : Byte) : Statement (.jmp imm) := by
  simp only [Statement, encode, Instr.op, List.headD_cons]; decide
theorem jmpr (a : Reg) : Statement (.jmpr a) := by
  unfold Statement; cases a <;> decide
theorem jmpif (cond : BitVec 4) (imm : Byte) : Statement (.jmpif cond imm) := by
  have h : ∀ c : BitVec 4, firstByte 0#1 0b101#3 c &&& 0xF0#8 = 0x50#8 := by decide
  exact h cond
theorem int (imm : Byte) : Statement (.int imm) := by
  simp only [Statement, encode, Instr.op, List.headD_cons]; decide
theorem hlt : Statement .hlt := by
  unfold Statement; decide
theorem cli : Statement .cli := by
  unfold Statement; decide
theorem add (a b : Reg) : Statement (.add a b) := by
  unfold Statement; cases a <;> cases b <;> decide
theorem sub (a b : Reg) : Statement (.sub a b) := by
  unfold Statement; cases a <;> cases b <;> decide
theorem inc (a : Reg) : Statement (.inc a) := by
  unfold Statement; cases a <;> decide
theorem dec (a : Reg) : Statement (.dec a) := by
  unfold Statement; cases a <;> decide
theorem cmp (a b : Reg) : Statement (.cmp a b) := by
  unfold Statement; cases a <;> cases b <;> decide
theorem push (a : Reg) : Statement (.push a) := by
  unfold Statement; cases a <;> decide
theorem pop (a : Reg) : Statement (.pop a) := by
  unfold Statement; cases a <;> decide
end TableRow

end Sys2Proof.Laws
end

