-- ==== Sys2Proof/Tests/Slice0.lean ====
section
/-! SUPPORT. The model's own tests: each expected value comes from the spec, its test vectors V<n> and programs P<n> of
95_test_vectors.md or an encoding written out from 30_encoding.md. -/

namespace Sys2Proof.Machine.Tests

/-! ### Helpers -/

/-- The booted state with the given bytes at PROG_BASE. -/
def booted (bytes : List Byte) : State := loadImage bytes State.reset

/-- The booted state with bytes and the four registers preset. -/
def preset (bytes : List Byte) (r1 r2 r3 r4 : Byte) : State := (booted bytes).setRegs ⟨r1, r2, r3, r4⟩

/-- A part of the state after one step. -/
def after {α : Type} (s : State) (f : State → α) : Option α :=
  match step s with
  | .next t => some (f t)
  | .fault _ => none
  | .refused _ => none

/-- A part of the state after one tick. -/
def afterTick {α : Type} (s : State) (f : State → α) : Option α := after (s.setCalls [.tick]) f

/-- C, S and Z; E and L are free. -/
def csz (s : State) : Bool × Bool × Bool := (s.flags.c, s.flags.s, s.flags.z)

/-! ### WellFormed: each check refuses an ill-formed term -/

theorem test_default_config_wf : defaultConfig.wf = true := by decide
theorem test_two_control_opcodes_alike : { defaultOpcodes with ld := 0#3 }.controlDistinct = false := by decide
theorem test_hlt_and_cli_alike : { defaultOpcodes with cli := 0#4 }.sysDistinct = false := by decide
theorem test_two_alu_opcodes_alike : { defaultOpcodes with pop := 5#3 }.aluDistinct = false := by decide
theorem test_keyboard_over_program : { defaultConfig with kbdBase := 0x37#8 }.keyboardFits = false := by decide
theorem test_screen_over_program : { defaultConfig with screenBase := 0x11#8 }.screenFits = false := by decide
theorem test_buffers_overlap : { defaultConfig with kbdBase := 0x07#8 }.buffersApart = false := by decide
theorem test_no_program_room : { defaultConfig with progCap := 0 }.programRoom = false := by decide
theorem test_stack_past_the_top : { defaultConfig with progCap := 192 }.stackFits = false := by decide
theorem test_selectors_alike : { defaultConfig with condZ := 8#4 }.selectorsApart = false := by decide
theorem test_carry_range_off_zero : { defaultConfig with carryLo := 1 }.carryAroundZero = false := by decide
theorem test_screen_regs_alike : { defaultConfig with scrYReg := .r1 }.screenRegsApart = false := by decide
theorem test_keyboard_regs_alike : { defaultConfig with kbdCountReg := .r1 }.keyboardRegsApart = false := by decide
theorem test_flag_bits_alike : { defaultConfig with flagBitL := 0 }.flagBitsApart = false := by decide
theorem test_other_keyboard_code : { defaultConfig with intKeyboard := 3#8 }.sourceValues = false := by decide

/-! ### Decoding, each word written out as `c ooo aa bb` -/

/-- V3: the ignored field B of DATA. -/
theorem test_decode_data : decodeTableWord 16 0b0000010100001111 = some (.data .r4 0x05#8) := by decide
theorem test_decode_ld : decodeTableWord 8 0b00011011 = some (.ld .r3 .r4) := by decide
theorem test_decode_st : decodeTableWord 8 0b00101110 = some (.st .r4 .r3) := by decide
theorem test_decode_jmp : decodeTableWord 16 0b0000001000111111 = some (.jmp 0x02#8) := by decide
theorem test_decode_jmpr : decodeTableWord 8 0b01000100 = some (.jmpr .r2) := by decide
theorem test_decode_jmpif : decodeTableWord 16 0b0000100101010001 = some (.jmpif 1#4 0x09#8) := by decide
theorem test_decode_int : decodeTableWord 16 0b0000001001100000 = some (.int 0x02#8) := by decide
theorem test_decode_hlt : decodeTableWord 8 0b01110000 = some (.hlt) := by decide
theorem test_decode_cli : decodeTableWord 8 0b01110001 = some (.cli) := by decide
theorem test_decode_add : decodeTableWord 8 0b10000001 = some (.add .r1 .r2) := by decide
theorem test_decode_sub : decodeTableWord 8 0b10011011 = some (.sub .r3 .r4) := by decide
theorem test_decode_inc : decodeTableWord 8 0b10101000 = some (.inc .r3) := by decide
theorem test_decode_dec : decodeTableWord 8 0b10110000 = some (.dec .r1) := by decide
theorem test_decode_cmp : decodeTableWord 8 0b11000110 = some (.cmp .r2 .r3) := by decide
theorem test_decode_push : decodeTableWord 8 0b11011000 = some (.push .r3) := by decide
theorem test_decode_pop : decodeTableWord 8 0b11101100 = some (.pop .r4) := by decide
/-- V17, V25. -/
theorem test_decode_unassigned : [0x72, 0x7F, 0xF0, 0xFF].map (decodeTableWord 8) = List.replicate 4 none := by decide
theorem test_decode_unassigned_by_name : decode defaultOpcodes [0x72#8] = .error .unknownOpcode := by rfl
/-- The table's own numbering of bits: the operand byte is bits 15..8. -/
theorem test_table_word : decodeTableWord 16 0x0351 = some (.jmpif 1#4 0x03#8) := by decide
/-- An operand byte the table gives no bits is 0. -/
theorem test_table_word_short : decodeTableWord 8 0xFF0C = some (.data .r4 0x00#8) := by decide
theorem test_fetch_word_runs : after (State.reset.withFetchWord 16 0x2A04) (·.regs.r2) = some 0x2A#8 := by decide

/-! ### The assembler: the images of programs P2 and P4a -/

theorem test_assemble_p2 : assemble defaultConfig
    [.instr (.plain .data) [.reg 1, .num 3], .label "loop", .instr (.plain .dec) [.reg 1],
     .instr (.jmpif "Z") [.label "done"], .instr (.plain .jmp) [.label "loop"], .label "done",
     .instr (.plain .hlt) []] =
    .ok [0x00#8, 0x03#8, 0xB0#8, 0x51#8, 0x07#8, 0x30#8, 0x02#8, 0x70#8] := by rfl
theorem test_assemble_p4a : assemble defaultConfig
    [.instr (.plain .data) [.reg 1, .num 2], .instr (.plain .data) [.reg 2, .num 2],
     .instr (.plain .cmp) [.reg 1, .reg 2], .instr (.jmpif "Z") [.label "end"],
     .instr (.plain .data) [.reg 3, .num 1], .label "end", .instr (.plain .hlt) []] =
    .ok [0x00#8, 0x02#8, 0x04#8, 0x02#8, 0xC1#8, 0x51#8, 0x09#8, 0x08#8, 0x01#8, 0x70#8] := by rfl
theorem test_assemble_refuses :
    [assemble defaultConfig [.instr (.plain .cmp) [.reg 1, .num 2]],
     assemble defaultConfig [.instr (.plain .inc) [.reg 5]],
     assemble defaultConfig [.instr (.plain .data) [.reg 1, .num 256]],
     assemble defaultConfig [.instr (.plain .jmp) [.label "nowhere"]],
     assemble defaultConfig [.instr (.jmpif "A") [.num 0]],
     assemble defaultConfig [.instr (.plain .add) [.reg 1, .num 2]],
     assemble defaultConfig [.instr (.plain .hlt) [.reg 1]],
     assemble defaultConfig [.label "x", .label "x"]] =
    [.error .cmpImmediate, .error .unknownRegister, .error .valueOutOfRange, .error .undefinedLabel,
     .error .unknownConditionFlag, .error .typeError, .error .syntaxError, .error .duplicateLabel] := by rfl

/-! ### One step of each instruction -/

/-- V66. -/
theorem test_data : after (booted [0x08#8, 0xFF#8]) (fun t => (t.regs.r3, t.mar, t.iar, t.flags.z)) =
    some (0xFF#8, 0x41#8, 0x42#8, false) := by decide
/-- V69m: the operand byte and the next address wrap. -/
theorem test_data_wraps : after (((booted []).setMem [(0x00, 0x99#8), (0xFF, 0x04#8)]).setIar 0xFF#8)
    (fun t => (t.regs.r2, t.mar, t.iar)) = some (0x99#8, 0x00#8, 0x01#8) := by decide
/-- V67: A = B. -/
theorem test_ld : after (preset [0x15#8] 0 0x40#8 0 0) (fun t => (t.regs.r2, t.mar, t.iar)) =
    some (0x15#8, 0x40#8, 0x41#8) := by decide
/-- P3, step 3. -/
theorem test_st : after (preset [0x21#8] 0xC8#8 0x2A#8 0 0) (fun t => (memRead t.mem 0xC8#8, t.mar, t.iar)) =
    some (0x2A#8, 0x40#8, 0x41#8) := by decide
/-- V68: A = B. -/
theorem test_st_same : after (preset [0x20#8] 0x80#8 0 0 0) (fun t => memRead t.mem 0x80#8) = some 0x80#8 := by decide
/-- V69 and V69a. -/
theorem test_jmp : after (booted [0x30#8, 0x10#8]) (fun t => (t.iar, t.mar)) = some (0x50#8, 0x41#8) := by decide
theorem test_jmp_wraps : after (booted [0x30#8, 0xF0#8]) (·.iar) = some 0x30#8 := by decide
/-- V69b. -/
theorem test_jmpr : after (preset [0x44#8] 0 0x10#8 0 0) (fun t => (t.iar, t.mar)) = some (0x10#8, 0x40#8) := by decide
/-- V69c. -/
theorem test_jmpifz : after ((booted [0x51#8, 0x10#8]).setFlags ⟨false, false, true, false, false⟩) (·.iar) =
    some 0x50#8 := by decide
/-- V69f: a reserved selector is never taken. -/
theorem test_jmpif_reserved : after ((booted [0x59#8, 0x10#8]).setFlags ⟨true, true, true, true, true⟩) (·.iar) =
    some 0x42#8 := by decide
/-- V69h. -/
theorem test_int : after (booted [0x60#8, 0x02#8]) (fun t => (t.int, t.mar, t.iar)) =
    some (0x02#8, 0x41#8, 0x42#8) := by decide
/-- V69i. -/
theorem test_cli : after ((booted [0x71#8]).setInt 2#8) (fun t => (t.iack, t.int, t.iar)) =
    some (true, 2#8, 0x41#8) := by decide
/-- V69j. -/
theorem test_hlt : after (booted [0x70#8]) (fun t => (t.halted, t.iar, t.env.reply)) =
    some (true, 0x41#8, .running false) := by decide
/-- V30. -/
theorem test_add : after (preset [0x81#8] 2 3 0 0) (fun t => (t.regs.r2, t.regs.r1, csz t)) =
    some (5#8, 2#8, false, false, false) := by decide
/-- V37: the wide sum is 256. -/
theorem test_add_wraps : after (preset [0x81#8] 255 1 0 0) (fun t => (t.regs.r2, csz t)) =
    some (0#8, true, false, false) := by decide
/-- V43: clamped, and Z looks at the unclamped difference. -/
theorem test_sub_clamps : after (preset [0x91#8] 2 3 0 0) (fun t => (t.regs.r2, csz t)) =
    some (0#8, false, true, false) := by decide
/-- V45. -/
theorem test_sub : after (preset [0x91#8] 200 10 0 0) (fun t => (t.regs.r2, csz t)) =
    some (190#8, true, false, false) := by decide
/-- V56. -/
theorem test_inc_wraps : after (preset [0xA0#8] 255 0 0 0) (fun t => (t.regs.r1, csz t)) =
    some (0#8, true, false, false) := by decide
/-- V57. -/
theorem test_dec : after (preset [0xB0#8] 1 0 0 0) (fun t => (t.regs.r1, csz t)) =
    some (0#8, false, false, true) := by decide
/-- V58. -/
theorem test_dec_clamps : after (preset [0xB0#8] 0 0 0 0) (fun t => (t.regs.r1, csz t)) =
    some (0#8, false, true, false) := by decide
/-- V49: the flags of -129, and no register written. -/
theorem test_cmp : after (preset [0xC1#8] 0 129 0 0) (fun t => (t.regs, csz t)) =
    some (⟨0#8, 129#8, 0#8, 0#8⟩, true, true, false) := by decide
/-- V62: the last push that succeeds. -/
theorem test_push : after ((preset [0xD0#8] 0x11#8 0 0 0).setSp 0xFE#8)
    (fun t => (memRead t.mem 0xFE#8, t.sp, t.mar, t.iar)) = some (0x11#8, 0xFF#8, 0x40#8, 0x41#8) := by decide
/-- V63. -/
theorem test_push_overflow : after ((preset [0xD0#8] 0x11#8 0 0 0).setSp 0xFF#8)
    (fun t => (t.fault, memRead t.mem 0xFF#8, t.sp, t.iar, t.mar, t.ir)) =
    some (some ⟨.stackOverflow, 0x40#8⟩, 0x00#8, 0xFF#8, 0x40#8, 0x40#8, 0xD0#8) := by decide
/-- V61. -/
theorem test_pop : after (((booted [0xE4#8]).setSp 0xC1#8).setMem [(0x40, 0xE4#8), (0xC0, 0x5A#8)])
    (fun t => (t.sp, t.regs.r2, memRead t.mem 0xC0#8)) = some (0xC0#8, 0x5A#8, 0x5A#8) := by decide
/-- V65: SP wraps, no fault. -/
theorem test_pop_wraps : after (((booted [0xE0#8]).setSp 0x00#8).setMem [(0x40, 0xE0#8), (0xFF, 0x77#8)])
    (fun t => (t.sp, t.regs.r1, t.fault)) = some (0xFF#8, 0x77#8, none) := by decide
/-- V69k. -/
theorem test_unknown_opcode : after (booted [0x72#8]) (fun t => (t.fault, t.ir, t.mar, t.iar)) =
    some (some ⟨.unknownOpcode, 0x40#8⟩, 0x72#8, 0x40#8, 0x40#8) := by decide
/-- V84 and 41_cycle.md R127: a stuck call. -/
theorem test_no_step_when_halted : after ((booted []).setHalted true) (·.iar) = none := by decide
theorem test_no_tick_when_faulted : afterTick ((booted []).setFault (some ⟨.stackOverflow, 0x40#8⟩)) (·.iar) = none := by
  decide

/-! ### The peripherals, boot and reset -/

/-- V70, after both deliveries. -/
theorem test_keyboard_drain : afterTick (((preset [] 0x55#8 0x66#8 0 0).setInt 2#8).setKbuf [0x41#8, 0x42#8])
    (fun t => (memRead t.mem 0x00#8, memRead t.mem 0x01#8, t.regs.r1, t.regs.r2, t.kbuf, t.int)) =
    some (0x41#8, 0x42#8, 0x00#8, 0x02#8, [], 2#8) := by decide
/-- V73: the eleventh delivery is dropped. -/
theorem test_keyboard_full : after (((booted []).setKbuf (List.replicate 10 1#8)).setCalls [.deliver .keyboard 11#8])
    (·.kbuf) = some (List.replicate 10 1#8) := by decide
/-- V75. -/
theorem test_screen_pixel : afterTick ((preset [] 3 2 7 0).setInt 1#8) (fun t => (t.pix[19]?, t.pix[18]?, t.mem)) =
    some (some 7#8, some 0#8, []) := by decide
/-- V78. -/
theorem test_screen_fault : afterTick ((preset [] 0 6 0 0).setInt 1#8) (·.fault) =
    some (some ⟨.screenIndexOutOfRange, 0x40#8⟩) := by decide
/-- V80: the acknowledgement comes first. -/
theorem test_acknowledge : afterTick ((((booted []).setInt 2#8).setIack true).setKbuf [0x41#8])
    (fun t => (t.kbuf, t.iack, t.int, t.regs.r2)) = some ([], false, 0#8, 0#8) := by decide
/-- V83: a tick after HLT. -/
theorem test_tick_when_halted : afterTick ((((booted []).setInt 2#8).setHalted true).setKbuf [0x41#8])
    (fun t => (memRead t.mem 0x00#8, t.regs.r2, t.halted)) = some (0x41#8, 1#8, true) := by decide
/-- V91, with PROG_CAP = 1 and two bytes: a boot that does not fit. -/
theorem test_boot_too_large : after ((State.fresh { defaultConfig with progCap := 1 }).setCalls [.boot [1#8, 2#8]])
    (fun t => (t.fault, t.iar, t.mar, t.mem)) = some (some ⟨.imageTooLarge, 0x00#8⟩, 0x00#8, 0x00#8, []) := by decide
/-- V90: reset boots the last image again. -/
theorem test_reset : after ((((preset [0x70#8] 1 2 3 4).setImage [0x71#8]).setHalted true).setCalls [.reset])
    (fun t => (memRead t.mem 0x40#8, t.regs.r1, t.halted, t.iar, t.sp)) =
    some (0x71#8, 0#8, false, 0x40#8, 0xC0#8) := by decide
/-- 10_state.md R37: the default positions. -/
theorem test_flags_byte : flagsByte defaultConfig ⟨true, false, true, false, true⟩ = 0x15#8 := by decide
/-- 95_test_vectors.md, the bitwise functions. -/
theorem test_bitwise : (bitResult .or 0xF0#8 0x0F#8 0#8, bitResult .and 0xF0#8 0x3C#8 0#8, bitResult .not 0xA5#8 0#8 0#8,
    bitResult .shl 0x81#8 1#8 0#8, bitResult .shr 0x81#8 1#8 0#8) = (0xFF#8, 0x30#8, 0x5A#8, 0x02#8, 0x40#8) := by decide

/-! ### Witnesses: for every obligation with hypotheses, a state and operands that meet them all -/

/-- A configuration R4 admits, with a program region of two bytes. -/
def smallConfig : Config := { defaultConfig with progCap := 2 }

/-- The booted state with the CPU's next instruction at 0xFF, so that its operand byte is at 0x00. -/
def atTheTop (first second : Byte) : State := ((booted []).setMem (putCell [(0xFF, first)] 0x00 second)).setIar 0xFF#8

theorem witness_DecodeOfEncodeIsTheInstruction : defaultOpcodes.wf = true := by decide
theorem witness_EncodeOfDecodedKeepsTheUsedBits :
    decodeOp defaultOpcodes 0x00#8 = .ok .data ∧ decodeOp defaultOpcodes 0x70#8 = .ok .hlt ∧
    decodeOp defaultOpcodes 0x71#8 = .ok .cli ∧ decodeOp defaultOpcodes 0xEF#8 = .ok .pop := ⟨rfl, rfl, rfl, rfl⟩
theorem witness_UnusedFieldsAreIgnored :
    (decodeOp defaultOpcodes 0x30#8 = .ok .jmp ∧ classField 0x3F#8 = classField 0x30#8 ∧
      opField 0x3F#8 = opField 0x30#8 ∧ Op.jmp ∈ [Op.jmp, Op.int]) ∧
    (decodeOp defaultOpcodes 0xEC#8 = .ok .pop ∧ classField 0xEF#8 = classField 0xEC#8 ∧
      opField 0xEF#8 = opField 0xEC#8 ∧ Op.pop ∈ [Op.data, Op.jmpr, Op.inc, Op.dec, Op.push, Op.pop] ∧
      aField 0xEF#8 = aField 0xEC#8) := ⟨⟨rfl, by decide⟩, ⟨rfl, by decide⟩⟩
theorem witness_StepRunsTheDecodedInstruction_none_pending :
    (atTheTop 0x04#8 0x2A#8).canStep ∧ (atTheTop 0x04#8 0x2A#8).env.calls = [] ∧
    decode (atTheTop 0x04#8 0x2A#8).env.cfg.opc (atTheTop 0x04#8 0x2A#8).nextBytes = .ok (.data .r2 0x2A#8, []) :=
  ⟨⟨rfl, rfl⟩, rfl, rfl⟩
theorem witness_StepRunsTheDecodedInstruction_cycle_pending :
    let s := (booted [0x81#8]).setCalls [.cycle, .tick]
    s.canStep ∧ s.env.calls = .cycle :: [.tick] ∧
    decode s.env.cfg.opc s.nextBytes = .ok (.add .r1 .r2, [0x00#8]) := ⟨⟨rfl, rfl⟩, rfl, rfl⟩
theorem witness_IarUpdateAtTheEndOfAStep_jumps : ∃ t, cycle (atTheTop 0x30#8 0x10#8) = .next t ∧ t.fault = none ∧
    decodeOp defaultOpcodes (memRead (atTheTop 0x30#8 0x10#8).mem 0xFF#8) = .ok .jmp := ⟨_, rfl, rfl, rfl⟩
theorem witness_IarUpdateAtTheEndOfAStep_advances : ∃ t, cycle (atTheTop 0x04#8 0x10#8) = .next t ∧ t.fault = none ∧
    decodeOp defaultOpcodes (memRead (atTheTop 0x04#8 0x10#8).mem 0xFF#8) = .ok .data := ⟨_, rfl, rfl, rfl⟩
theorem witness_IarUpdateAtTheEndOfAStep_faults : ∃ t, cycle (atTheTop 0xF0#8 0x00#8) = .next t ∧ t.fault ≠ none :=
  ⟨_, rfl, by decide⟩
theorem witness_CycleReturnsFalseExactlyForHlt :
    (∃ t, cycle (booted [0x70#8]) = .next t ∧ t.fault = none) ∧ (∃ t, cycle (booted [0x71#8]) = .next t ∧ t.fault = none) ∧
    (∃ t, cycle (booted [0x72#8]) = .next t ∧ t.fault = some ⟨.unknownOpcode, 0x40#8⟩) :=
  ⟨⟨_, rfl, rfl⟩, ⟨_, rfl, rfl⟩, ⟨_, rfl, rfl⟩⟩
theorem witness_StepsExistExactlyWhenEnabled : (booted []).canStep ∧
    (((booted []).setHalted true).fault = none ∧ ((booted []).setHalted true).halted = true) ∧
    ((booted []).setFault (some ⟨.imageTooLarge, 0x40#8⟩)).fault = some ⟨.imageTooLarge, 0x40#8⟩ ∧
    cycle (((booted []).setHalted true).setFault (some ⟨.imageTooLarge, 0x40#8⟩)) =
      .fault (.faultLatched ⟨.imageTooLarge, 0x40#8⟩) :=
  ⟨⟨rfl, rfl⟩, ⟨rfl, rfl⟩, rfl, rfl⟩
theorem witness_UnassignedByteRaisesUnknownOpcode : (booted [0x72#8]).canStep ∧
    decodeOp defaultOpcodes (memRead (booted [0x72#8]).mem 0x40#8) = .error .unknownOpcode ∧
    (∃ e, decodeOp defaultOpcodes 0x7F#8 = .error e) ∧ (∃ e, decodeOp defaultOpcodes 0xF0#8 = .error e) ∧
    decodeOp defaultOpcodes 0x71#8 = .ok .cli ∧ decodeOp defaultOpcodes 0xEF#8 = .ok .pop :=
  ⟨⟨rfl, rfl⟩, rfl, ⟨_, rfl⟩, ⟨_, rfl⟩, rfl, rfl⟩
/-- ST into the next instruction's byte, and elsewhere. -/
theorem witness_StoreIsSeenByTheNextFetch :
    let s := preset [0x21#8] 0x41#8 0x70#8 0 0
    let s' := preset [0x21#8] 0x42#8 0x70#8 0 0
    (s.mem.wf = true ∧ s.runs (.st .r1 .r2) ∧ (∃ t, step s = .next t) ∧ readReg .r1 s = s.iar + 1#8) ∧
    (s'.mem.wf = true ∧ s'.runs (.st .r1 .r2) ∧ (∃ t, step s' = .next t) ∧ readReg .r1 s' ≠ s'.iar + 1#8) :=
  ⟨⟨by decide, ⟨rfl, _, rfl⟩, ⟨_, rfl⟩, rfl⟩, ⟨by decide, ⟨rfl, _, rfl⟩, ⟨_, rfl⟩, by decide⟩⟩
theorem witness_StStoresThroughARegister : (preset [0x21#8] 0xFF#8 0x2A#8 0 0).mem.wf = true := by decide
theorem witness_JmpifBranchesOnCarryOrZeroAlone :
    let s := (booted []).setFlags ⟨true, false, false, true, true⟩
    s.env.cfg.condC ≠ s.env.cfg.condZ ∧ (8#4 = s.env.cfg.condC ∧ s.flags.c = true) ∧
    ¬((1#4 = s.env.cfg.condC ∧ s.flags.c = true) ∨ (1#4 = s.env.cfg.condZ ∧ s.flags.z = true)) ∧
    ¬((15#4 = s.env.cfg.condC ∧ s.flags.c = true) ∨ (15#4 = s.env.cfg.condZ ∧ s.flags.z = true)) := by decide
theorem witness_PushStoresAtSpAndAdvances :
    ((booted []).setSp 0xFE#8).sp ≠ 0xFF#8 ∧ ((booted []).setSp 0xFE#8).mem.wf = true := by decide
theorem witness_PushAtTheTopRaisesStackOverflow :
    let s := (booted [0xD0#8]).setSp 0xFF#8
    s.canStep ∧ decodeOp s.env.cfg.opc (memRead s.mem s.iar) = .ok .push ∧ s.sp = 0xFF#8 := ⟨⟨rfl, rfl⟩, rfl, rfl⟩
theorem witness_PushThenPopRestoresTheStack :
    (State.reset.setSp 0x00#8).mem.wf = true ∧ (State.reset.setSp 0x00#8).sp ≠ 0xFF#8 := by decide
/-- The pushes that fill the last two usable cells. -/
theorem witness_PushesFillTheStackUpward : (State.reset.setSp 0xFD#8).mem.wf = true ∧
    (State.reset.setSp 0xFD#8).sp.toNat + [Reg.r1, Reg.r4].length ≤ 0xFF := by decide
theorem witness_PopsReturnPushesInReverse : (State.reset.setSp 0xFC#8).mem.wf = true ∧
    (State.reset.setSp 0xFC#8).sp.toNat + [Reg.r1, Reg.r1, Reg.r3].length ≤ 0xFF := by decide
theorem witness_AluIncrementWrapsAndDecrementClamps : { defaultConfig with zeroAfterWrap := true }.zeroAfterWrap = true := by
  decide
theorem witness_AluShiftsByAtMostSeven : (7#8).toNat ≤ 7 := by decide
theorem witness_FlagsByteLayout : defaultConfig.flagBitsApart = true := by decide
theorem witness_CanonicalMemoriesAreEqual :
    Memory.wf [(0x00, 1#8), (0xFF, 2#8)] = true ∧
    (∀ a, memRead [(0x00, 1#8), (0xFF, 2#8)] a = memRead (memWrite [(0x00, 1#8)] 0xFF#8 2#8) a) ∧
    Memory.wf (memWrite [(0x00, 1#8)] 0xFF#8 2#8) = true := ⟨by decide, fun _ => rfl, by decide⟩
theorem witness_LoadsSeeTheLastStore : Memory.wf [(0x40, 1#8)] = true ∧
    lastStored 0x40#8 [(0x40#8, 2#8), (0x41#8, 3#8), (0x40#8, 0#8)] = some 0#8 ∧
    lastStored 0x42#8 [(0x40#8, 2#8), (0x41#8, 3#8), (0x40#8, 0#8)] = none := by decide
theorem witness_DeliveriesReachTheKeyboardBuffer :
    ((booted []).setCalls [.deliver .keyboard 1#8]).env.calls = .deliver .keyboard 1#8 :: [] ∧
    ((booted []).setCalls [.deliver .screen 1#8, .tick]).env.calls = .deliver .screen 1#8 :: [.tick] := by decide
/-- No key, one key and ten keys. -/
theorem witness_KeyboardServiceDrainsTheBuffer : ∀ n ∈ [0, 1, 10],
    let s := ((booted []).setInt 2#8).setKbuf (List.replicate n 7#8)
    s.wf = true ∧ s.fault = none ∧ s.iack = false ∧ s.int = s.env.cfg.intKeyboard ∧ (s.kbuf = [] ↔ n = 0) := by decide
/-- The last pixel, 47, and the first index outside, 48. -/
theorem witness_ScreenServiceWritesOnePixelOrFaults :
    let s := (preset [] 7 5 9 0).setInt 1#8
    let s' := (preset [] 0 6 9 0).setInt 1#8
    (s.wf = true ∧ s.fault = none ∧ s.iack = false ∧ s.int = s.env.cfg.intScreen ∧ pixelIndex s + 1 = s.env.cfg.pixels) ∧
    (s'.wf = true ∧ s'.fault = none ∧ s'.iack = false ∧ s'.int = s'.env.cfg.intScreen ∧
      pixelIndex s' = s'.env.cfg.pixels) := by decide
/-- An acknowledgement pending, a key buffered, and the screen requested at (x, y) by a code that stays in INT. -/
def screenHeld (x y : Byte) : State :=
  ((((State.resetWith { defaultConfig with ackClearsInt := false }).setInt 1#8).setIack true).setKbuf [0x41#8]).setRegs
    ⟨x, y, 9#8, 0#8⟩

/-- With and without ACK_CLEARS_INT; without it, at the screen's code, the last pixel and the first index outside. -/
theorem witness_AcknowledgementComesBeforeTheServices :
    let s := ((booted []).setInt 1#8).setIack true
    let s' := ((State.resetWith { defaultConfig with ackClearsInt := false }).setInt 2#8).setIack true
    (s.wf = true ∧ s.fault = none ∧ s.iack = true ∧ s.env.cfg.ackClearsInt = true) ∧
    (s'.wf = true ∧ s'.fault = none ∧ s'.iack = true ∧ s'.int ≠ s'.env.cfg.intScreen) ∧
    (∀ p ∈ [(screenHeld 7#8 5#8, 47), (screenHeld 0#8 6#8, 48)], p.1.wf = true ∧ p.1.fault = none ∧ p.1.iack = true ∧
      p.1.env.cfg.ackClearsInt = false ∧ p.1.int = p.1.env.cfg.intScreen ∧ pixelIndex p.1 = p.2) := by decide
/-- 60_exceptions.md R201, R204, R216: the screen's request outlives the acknowledgement, and the fault keeps it. -/
theorem test_acknowledge_then_screen :
    afterTick (screenHeld 7#8 5#8) (fun t => (t.pix[47]?, t.iack, t.kbuf.length, t.fault)) =
      some (some 9#8, false, 0, none) ∧
    afterTick (screenHeld 0#8 6#8) (fun t => (t.pix[47]?, t.iack, t.kbuf.length, t.fault)) =
      some (some 0#8, false, 0, some ⟨.screenIndexOutOfRange, 0x40#8⟩) := by decide
theorem witness_UnclaimedCodesAreIgnored : ∀ c ∈ [0#8, 3#8, 255#8],
    let s := (booted []).setInt c
    s.wf = true ∧ s.fault = none ∧ (s.int = 0#8 ∨ 3 ≤ s.int.toNat) := by decide
theorem witness_ServicesCommute : State.reset.env.cfg.wf = true ∧ State.reset.fault = none := by decide
theorem witness_TickLeavesFlagsSpIarMarIrOutAndHalted : ∃ t, tick ((booted []).setInt 1#8) = .next t := ⟨_, rfl⟩
/-- An image one byte too long, one that just fits, and the empty one. -/
theorem witness_BootLoadsTheImage :
    (State.resetWith smallConfig).wf = true ∧
    (State.resetWith smallConfig).env.cfg.progCap < [1#8, 2#8, 3#8].length ∧
    [1#8, 2#8].length ≤ (State.resetWith smallConfig).env.cfg.progCap ∧
    ([] : List Byte).length ≤ (State.resetWith smallConfig).env.cfg.progCap := by decide
theorem witness_ResetGivesEveryFieldItsValue :
    let s := (State.fresh smallConfig).setImage [0x70#8, 0x00#8]
    s.env.cfg.wf = true ∧ s.env.image.length ≤ s.env.cfg.progCap := by decide
theorem witness_ResetIsIdempotent :
    let s := ((State.resetWith smallConfig).setHalted true).setImage [0x04#8, 0x2A#8]
    s.env.cfg.wf = true ∧ s.env.image.length ≤ s.env.cfg.progCap := by decide
theorem witness_EveryStepKeepsTheStateInOrder : ∀ c ∈ [HostCall.cycle, .tick, .deliver .keyboard 0#8, .boot [1#8], .reset],
    ((booted [0xD0#8]).setCalls [c]).wf = true ∧ after ((booted [0xD0#8]).setCalls [c]) (·.wf) = some true := by decide
theorem witness_ResetStateIsInOrder : smallConfig.wf = true := by decide
/-- A halted state and a faulted one keep their latches; HLT sets HALTED. -/
theorem witness_OnlyResetClearsHaltedAndFault :
    let s := ((booted []).setHalted true).setCalls [.tick]
    let s' := ((booted []).setFault (some ⟨.unknownOpcode, 0x40#8⟩)).setCalls [.boot []]
    ((∃ t, step s = .next t) ∧ ¬s.nextIs .reset ∧ s.halted = true) ∧
    ((∃ t, step s' = .next t) ∧ ¬s'.nextIs .reset ∧ s'.fault ≠ none) ∧
    (∃ t, step (booted [0x70#8]) = .next t ∧ (booted [0x70#8]).halted = false ∧ t.halted = true) :=
  ⟨⟨⟨_, rfl⟩, nofun, rfl⟩, ⟨⟨_, rfl⟩, nofun, by decide⟩, ⟨_, rfl, rfl, rfl⟩⟩
/-- Each of the four kinds; ImageTooLarge both ways. -/
theorem witness_FaultsHaveTheirCauses :
    let tooLong := ((State.resetWith smallConfig).setImage [1#8, 2#8, 3#8]).setCalls [.reset]
    (∀ s ∈ [booted [0xFF#8], (booted [0xD0#8]).setSp 0xFF#8, ((preset [] 0 6 0 0).setInt 1#8).setCalls [.tick],
      (State.resetWith smallConfig).setCalls [.boot [1#8, 2#8, 3#8]], tooLong], s.wf = true ∧ s.fault = none) ∧
    after (booted [0xFF#8]) (·.fault) = some (some ⟨.unknownOpcode, 0x40#8⟩) ∧
    after ((booted [0xD0#8]).setSp 0xFF#8) (·.fault) = some (some ⟨.stackOverflow, 0x40#8⟩) ∧
    afterTick ((preset [] 0 6 0 0).setInt 1#8) (·.fault) = some (some ⟨.screenIndexOutOfRange, 0x40#8⟩) ∧
    after ((State.resetWith smallConfig).setCalls [.boot [1#8, 2#8, 3#8]]) (·.fault) =
      some (some ⟨.imageTooLarge, 0x40#8⟩) ∧
    after tooLong (·.fault) = some (some ⟨.imageTooLarge, 0x40#8⟩) := by decide
/-- Each writer changes a byte that held 0x00. -/
theorem witness_MemoryIsWrittenOnlyByItsWriters :
    let st := preset [0x21#8] 0xC8#8 0x2A#8 0 0
    let push := (preset [0xD0#8] 0x11#8 0 0 0).setSp 0xFE#8
    let drain := (((booted []).setInt 2#8).setKbuf (List.replicate 10 7#8)).setCalls [.tick]
    let load := (booted []).setCalls [.boot [1#8]]
    let reset := (booted [1#8]).setCalls [.reset]
    (∀ s ∈ [st, push, drain, load, reset], s.mem.wf = true) ∧
    after st (memRead ·.mem 0xC8#8) = some 0x2A#8 ∧ after push (memRead ·.mem 0xFE#8) = some 0x11#8 ∧
    after drain (memRead ·.mem 0x09#8) = some 7#8 ∧ after load (memRead ·.mem 0x40#8) = some 1#8 ∧
    after reset (memRead ·.mem 0x40#8) = some 0#8 ∧
    [memRead st.mem 0xC8#8, memRead push.mem 0xFE#8, memRead drain.mem 0x09#8, memRead load.mem 0x40#8,
      memRead reset.mem 0x40#8] = [0#8, 0#8, 0#8, 0#8, 1#8] := by decide
theorem witness_RegistersAreWrittenOnlyByTheirWriters :
    after (preset [0x04#8, 0x2A#8] 1 1 1 1) (readReg .r2) = some 0x2A#8 ∧
    afterTick (((preset [] 1 1 1 1).setInt 2#8).setKbuf [7#8, 8#8]) (readReg .r2) = some 2#8 ∧
    after ((preset [] 1 1 1 1).setCalls [.reset]) (readReg .r2) = some 0#8 ∧
    readReg .r2 (preset [] 1 1 1 1) = 1#8 := by decide
theorem witness_SpAndIntAreWrittenOnlyByTheirWriters :
    after (preset [0xD0#8] 1 0 0 0) (·.sp) = some 0xC1#8 ∧ after (booted [0xE0#8]) (·.sp) = some 0xBF#8 ∧
    after (((booted []).setSp 0xC5#8).setCalls [.reset]) (·.sp) = some 0xC0#8 ∧
    after (booted [0x60#8, 0x02#8]) (·.int) = some 2#8 ∧
    afterTick (((booted []).setInt 2#8).setIack true) (·.int) = some 0#8 ∧
    after (((booted []).setInt 2#8).setCalls [.reset]) (·.int) = some 0#8 := by decide
theorem witness_FlagsAreWrittenOnlyByArithmetic :
    after (preset [0xC1#8] 0 129 0 0) csz = some (true, true, false) ∧
    after (((booted []).setFlags ⟨true, true, true, true, true⟩).setCalls [.reset]) csz = some (false, false, false) ∧
    csz (preset [0xC1#8] 0 129 0 0) = (false, false, false) := by decide
theorem witness_OutAndTheConfigurationStay :
    ∃ t, step (({ State.reset with out := 5#8 }).setCalls [.reset]) = .next t ∧ t.out ≠ 5#8 := ⟨_, rfl, by decide⟩
theorem witness_CpuDoesNotSeeThePeripheralBuffers :
    (∃ t, cycle (booted [0x70#8]) = .next t) ∧ cycle ((booted []).setHalted true) = .fault .halted := ⟨⟨_, rfl⟩, rfl⟩
/-- With room in the buffer, and with none; and a step that faults. -/
theorem witness_DeliveryCommutesWithACpuStep :
    (∃ t, cycle ((booted [0x71#8]).setKbuf (List.replicate 9 1#8)) = .next t) ∧
    (∃ t, cycle ((booted [0x71#8]).setKbuf (List.replicate 10 1#8)) = .next t) ∧
    (∃ t, cycle (booted [0x72#8]) = .next t ∧ t.fault ≠ none) := ⟨⟨_, rfl⟩, ⟨_, rfl⟩, ⟨_, rfl, by decide⟩⟩
theorem witness_ImageSizeAndLabelOffsets :
    let lines : List SrcLine := [.instr (.plain .jmp) [.label "end"], .label "end", .instr (.plain .hlt) []]
    assemble defaultConfig lines = .ok [0x30#8, 0x02#8, 0x70#8] ∧
    lines = [.instr (.plain .jmp) [.label "end"]] ++ .label "end" :: [.instr (.plain .hlt) []] := ⟨rfl, rfl⟩
theorem witness_CmpImmediateIsRefused :
    SrcLine.instr (.plain .cmp) [.reg 1, .num 2] ∈ [SrcLine.label "x", .instr (.plain .cmp) [.reg 1, .num 2]] := by decide

end Sys2Proof.Machine.Tests
end

section
/-! PROOFS. The ALU as a block (40_alu_unit.md): what an arithmetic and a bitwise call answer, what a wrapped byte and each
flag say of a wide result, and from these the claims about Add, Subtract, Increment and Decrement, Or, And and Not. -/

namespace Sys2Proof.Machine

/-! ### A call of the ALU -/

/-- Every arithmetic call derives its flags from the wide result, before any wrap or clamp (40_alu_unit.md R102); E and L
are whatever the call drew. -/
theorem alu_arith_flags (cfg : Config) (op : ArithOp) (a b : Byte) (old : Flags) (n : Nat) :
    let f := (alu cfg (.arith op) a b old n).flags
    f = flagsOf cfg (arithWide op a b) f.e f.l := rfl

/-- A bitwise call leaves the flags as they are (40_alu_unit.md R115). -/
@[simp] theorem alu_bits_flags (cfg : Config) (op : BitOp) (a b : Byte) (old : Flags) (n : Nat) :
    (alu cfg (.bits op) a b old n).flags = old := rfl

/-! ### The wrapped byte and the flags of a wide result -/

/-- The wrapped byte of any wide result, negative ones included. -/
theorem wrapByte_toNat_of_int (w : Int) : ((wrapByte w).toNat : Int) = w % 256 := by
  simp only [wrapByte, BitVec.toNat_ofInt]; omega

theorem flagsOf_s_eq_false {w : Int} (h : 0 ≤ w) (cfg : Config) (e l : Bool) : (flagsOf cfg w e l).s = false := by
  rw [← Bool.not_eq_true, flagsOf_s]; omega

/-- With the default carry range, -128..127, carry is set exactly outside it. -/
theorem flagsOf_default_c (w : Int) (e l : Bool) :
    (flagsOf defaultConfig w e l).c = true ↔ 128 ≤ w ∨ w ≤ -129 := by
  rw [flagsOf_c]; simp only [defaultConfig]; omega

/-- The default configuration tests the wide result for zero, not the wrapped byte. -/
theorem flagsOf_default_z (w : Int) (e l : Bool) : (flagsOf defaultConfig w e l).z = true ↔ w = 0 :=
  flagsOf_z defaultConfig w e l

/-- Under ZERO_AFTER_WRAP the wrapped byte is tested for zero. -/
theorem flagsOf_z_of_zeroAfterWrap {cfg : Config} (h : cfg.zeroAfterWrap = true) (w : Int) (e l : Bool) :
    (flagsOf cfg w e l).z = true ↔ w % 256 = 0 := by
  rw [flagsOf_z, if_pos h]

/-- Between -255 and 255 no wide result but zero itself wraps to zero, so there both zero rules agree. -/
theorem flagsOf_z_of_abs_le {w : Int} (hlo : -255 ≤ w) (hhi : w ≤ 255) (cfg : Config) (e l : Bool) :
    (flagsOf cfg w e l).z = true ↔ w = 0 := by
  rw [flagsOf_z]
  split
  · omega
  · rfl

/-! ### The arithmetic operations -/

/-- Settles O28. The wide sum is never negative, so S is clear, and it is zero only when both bytes are. -/
theorem aluAddWraps : Obligations.AluAddWraps := by
  refine ⟨fun cfg a b old n => ?_, fun old n => by and_intros <;> rfl⟩
  intro w o
  have hw : w = (a.toNat : Int) + b.toNat := rfl
  have ha := a.isLt
  have hb := b.isLt
  have hlo : 0 ≤ w := by omega
  have hzero : w = 0 ↔ a = 0#8 ∧ b = 0#8 := by
    rw [BitVec.toNat_eq, BitVec.toNat_eq, BitVec.toNat_zero]; omega
  refine ⟨hlo, by omega, wrapByte_toNat_of_int w, alu_arith_flags .., flagsOf_s_eq_false hlo .., ?_⟩
  rintro rfl
  exact ⟨(flagsOf_default_c w _ _).trans (by omega), (flagsOf_default_z w _ _).trans hzero⟩

/-- Settles O29. The difference of two bytes lies between -255 and 255, where both zero rules say `w = 0`, so Z means
equal bytes in every configuration. -/
theorem aluSubtractClamps : Obligations.AluSubtractClamps := by
  refine ⟨fun cfg a b old n => ?_, fun old n => by and_intros <;> rfl⟩
  intro w o
  have hw : w = (a.toNat : Int) - b.toNat := rfl
  have ha := a.isLt
  have hb := b.isLt
  have hlo : -255 ≤ w := by omega
  have hhi : w ≤ 255 := by omega
  have hsign : w < 0 ↔ a.toNat < b.toNat := by omega
  have hzero : w = 0 ↔ a = b := by rw [BitVec.toNat_eq]; omega
  refine ⟨hlo, hhi, clampByte_toNat hhi, alu_arith_flags .., (flagsOf_s cfg w _ _).trans hsign,
    (flagsOf_z_of_abs_le hlo hhi ..).trans hzero, ?_⟩
  rintro rfl
  exact flagsOf_default_c w _ _

/-- Settles O30. Increment's wide result is at least 1, so its Z can be set only where 256 wraps to zero; Decrement's is
negative for 0 alone and zero for 1 alone. -/
theorem aluIncrementWrapsAndDecrementClamps : Obligations.AluIncrementWrapsAndDecrementClamps := by
  refine ⟨fun cfg a b old n => ?increment, fun cfg a b old n => ?decrement, fun b old n => by and_intros <;> rfl⟩
  case increment =>
    intro w o
    have hw : w = (a.toNat : Int) + 1 := rfl
    have ha := a.isLt
    have hnonneg : 0 ≤ w := by omega
    have hwrap : w % 256 = 0 ↔ a = 255#8 := by rw [BitVec.toNat_eq, BitVec.toNat_ofNat]; omega
    refine ⟨by omega, by omega, wrapByte_toNat_of_int w, alu_arith_flags .., flagsOf_s_eq_false hnonneg .., ?_,
      fun h => (flagsOf_z_of_zeroAfterWrap h w _ _).trans hwrap⟩
    rintro rfl
    have hz : ¬ o.flags.z = true := (flagsOf_default_z w _ _).not.mpr (by omega)
    exact ⟨(flagsOf_default_c w _ _).trans (by omega), Bool.eq_false_iff.mpr hz⟩
  case decrement =>
    intro w o
    have hw : w = (a.toNat : Int) - 1 := rfl
    have ha := a.isLt
    have hlo : -255 ≤ w := by omega
    have hhi : w ≤ 255 := by omega
    have hsign : w < 0 ↔ a = 0#8 := by rw [BitVec.toNat_eq, BitVec.toNat_zero]; omega
    have hzero : w = 0 ↔ a = 1#8 := by rw [BitVec.toNat_eq, BitVec.toNat_ofNat]; omega
    refine ⟨by omega, by omega, clampByte_toNat hhi, alu_arith_flags .., (flagsOf_s cfg w _ _).trans hsign,
      (flagsOf_z_of_abs_le hlo hhi ..).trans hzero, ?_⟩
    rintro rfl
    exact (flagsOf_default_c w _ _).trans (by omega)

/-! ### The bitwise operations -/

/-- Settles O31, from Lean's bit lemmas for `|||`, `&&&` and `~~~`, which are the results of the three operations. -/
theorem aluBitwiseOperations : Obligations.AluBitwiseOperations := by
  refine ⟨fun cfg a b old n => ?_, fun cfg b old n => ⟨rfl, rfl, rfl⟩⟩
  refine ⟨fun i => ⟨?or, ?and, ?not⟩, ?notValue, fun c => rfl, alu_bits_flags .., alu_bits_flags .., alu_bits_flags ..⟩
  case or => exact BitVec.getLsbD_or
  case and => exact BitVec.getLsbD_and
  case not =>
    have hi : decide (i.val < 8) = true := decide_eq_true i.isLt
    exact BitVec.getLsbD_not.trans (by rw [hi, Bool.true_and])
  case notValue => exact BitVec.toNat_not

end Sys2Proof.Machine
end

section
/-! PROOFS. How an instruction ends (41_cycle.md R125): it jumps, falls through to the next instruction, or faults where it
stands; and from this the claim about IAR at the end of a CPU step. -/

namespace Sys2Proof.Machine

/-! ### The state an instruction is executed in -/

/-- Fetch and operand fetch leave IAR alone. -/
@[simp] theorem State.fetched_iar (s : State) (op : Op) : (s.fetched op).iar = s.iar := by rw [State.fetched_eq]; rfl

/-- Fetch and operand fetch raise no fault. -/
@[simp] theorem State.fetched_fault (s : State) (op : Op) : (s.fetched op).fault = s.fault := by rw [State.fetched_eq]; rfl

/-- A jump's target and JMPIF's condition depend on the registers, the flags and the configuration, which fetch and operand
fetch leave alone. -/
@[simp] theorem jumpTarget_fetched (i : Instr) (s : State) (op : Op) : jumpTarget i (s.fetched op) = jumpTarget i s := by
  rw [State.fetched_eq]; cases i <;> rfl

/-! ### The end of an instruction -/

/-- The three ends of an instruction: PUSH with the stack full raises StackOverflow and does nothing else; a jump that is
taken goes to its target; all else falls through by the instruction's length, from a state with the same IAR and FAULT. -/
theorem exec_ends {i : Instr} {s u : State} (h : exec i s = .next u) :
    u = raiseFault .stackOverflow s ∨
    (∃ target, jumpTarget i s = some target ∧ u = jumpTo target s) ∨
    (jumpTarget i s = none ∧ ∃ w, u = fallThrough (instrLength i) w ∧ w.iar = s.iar ∧ w.fault = s.fault) := by
  cases i with
  | jmp | jmpr => cases h; exact .inr (.inl ⟨_, rfl, rfl⟩)
  | jmpif cond imm =>
    simp only [exec, execJmpif] at h
    split at h
    · next taken => cases h; exact .inr (.inl ⟨_, if_pos taken, rfl⟩)
    · next untaken => cases h; exact .inr (.inr ⟨if_neg untaken, s, rfl, rfl, rfl⟩)
  | push a =>
    simp only [exec, execPush] at h
    split at h
    · cases h; exact .inl rfl
    · cases h; exact .inr (.inr ⟨rfl, _, rfl, rfl, rfl⟩)
  | data | ld | st | int | hlt | cli | add | sub | inc | dec | cmp | pop =>
    cases h; exact .inr (.inr ⟨rfl, _, rfl, rfl, rfl⟩)

/-- An instruction that faults leaves IAR. -/
theorem exec_iar_of_fault {i : Instr} {s u : State} (h : exec i s = .next u) (hs : s.fault = none) (hu : u.fault ≠ none) :
    u.iar = s.iar := by
  obtain rfl | ⟨target, -, rfl⟩ | ⟨-, w, rfl, -, hw⟩ := exec_ends h
  · rfl
  · exact absurd hs hu
  · exact absurd (hw.trans hs) hu

/-- An instruction that does not fault takes IAR to its jump target, else past itself. -/
theorem exec_iar_of_no_fault {i : Instr} {s u : State} (h : exec i s = .next u) (hu : u.fault = none) :
    u.iar = (jumpTarget i s).getD (s.iar + BitVec.ofNat 8 (instrLength i)) := by
  obtain rfl | ⟨target, ht, rfl⟩ | ⟨ht, w, rfl, hiar, -⟩ := exec_ends h
  · exact absurd hu (Option.some_ne_none _)
  · rw [ht]; rfl
  · rw [ht, ← hiar]; rfl

/-! ### The end of a CPU step -/

/-- Settles O7. A byte that is no instruction faults before anything is executed; else IAR is where the instruction leaves
it, for recording the return value does not touch it. -/
theorem iarUpdateAtTheEndOfAStep : Obligations.IarUpdateAtTheEndOfAStep := by
  intro s t h
  obtain ⟨hs, -, ⟨-, rfl⟩ | ⟨op, u, hop, hexec, rfl⟩⟩ := cycle_cases h
  · exact ⟨fun _ => rfl, fun hnone => absurd hnone (Option.some_ne_none _)⟩
  · refine ⟨fun hfault => ?faults, fun hnone op' hop' => ?completes⟩
    case faults =>
      have hiar := exec_iar_of_fault hexec ((State.fetched_fault s op).trans hs) hfault
      exact hiar.trans (State.fetched_iar s op)
    case completes =>
      obtain rfl : op = op' := Except.ok.inj (hop.symm.trans hop')
      have hiar := exec_iar_of_no_fault hexec hnone
      rw [jumpTarget_fetched, State.fetched_iar, instrLength, instrOf_op] at hiar
      rw [State.setReply_iar, hiar]
      cases jumpTarget (instrOf op (memRead s.mem s.iar) (memRead s.mem (s.iar + 1#8))) s <;> rfl

end Sys2Proof.Machine
end

section
/-! PROOFS. The encoding (30_encoding.md): an instruction's bytes written once as class, opcode number, low bits and operand
byte; from this the round trips between the decoder and the encoder, the ignored bits, and the first-byte space. -/

namespace Sys2Proof

/-! ### The shape of an encoding -/

/-- Bits 3:0 of the first byte the encoder writes (30_encoding.md R71). -/
def lowBits (m : OpcodeMap) : Instr → BitVec 4
  | .ld a b | .st a b | .add a b | .sub a b | .cmp a b => regPair a b
  | .data a _ | .jmpr a | .inc a | .dec a | .push a | .pop a => regAlone a
  | .jmpif cond _ => cond
  | .hlt => m.hlt
  | .cli => m.cli
  | .jmp _ | .int _ => 0#4

/-- The operand byte of an instruction; 0 stands for none (30_encoding.md R78). -/
def operandOf : Instr → Byte
  | .data _ imm | .jmp imm | .jmpif _ imm | .int imm => imm
  | .ld _ _ | .st _ _ | .jmpr _ | .hlt | .cli | .add _ _ | .sub _ _ | .inc _ | .dec _ | .cmp _ _ | .push _ | .pop _ => 0#8

/-- The first byte the encoder writes. -/
def headByte (m : OpcodeMap) (i : Instr) : Byte :=
  firstByte (BitVec.ofBool (opIsAlu i.op)) (opNumber m i.op) (lowBits m i)

/-- Every encoding is a first byte and, for a 2-byte row, the operand byte. -/
theorem encode_eq (m : OpcodeMap) (i : Instr) :
    encode m i = headByte m i :: (if opLength i.op = 2 then [operandOf i] else []) := by cases i <;> rfl

/-- An encoding has as many bytes as its row says. -/
@[simp] theorem encode_length (m : OpcodeMap) (i : Instr) : (encode m i).length = opLength i.op := by cases i <;> rfl

@[simp] theorem classField_headByte (m : OpcodeMap) (i : Instr) : classField (headByte m i) = opIsAlu i.op := by
  rw [headByte, classField_firstByte]; cases opIsAlu i.op <;> rfl

@[simp] theorem opField_headByte (m : OpcodeMap) (i : Instr) : opField (headByte m i) = opNumber m i.op :=
  opField_firstByte ..

@[simp] theorem lowField_headByte (m : OpcodeMap) (i : Instr) : lowField (headByte m i) = lowBits m i :=
  lowField_firstByte ..

/-- The fields of an encoding's first byte give the instruction back. -/
theorem instrOf_headByte (m : OpcodeMap) (i : Instr) : instrOf i.op (headByte m i) (operandOf i) = i := by
  cases i <;>
    simp [instrOf, Instr.op, operandOf, headByte, lowBits, aField_regPair, bField_regPair, aField_regAlone,
      lowField_firstByte]

/-! ### From the fields of a byte to its row -/

/-- In a map whose rows have numbers of their own, a byte with a row's class, number and, in the SYS group, sub-function is
decoded to that row: the converse of `decodeOp_ok`. -/
theorem decodeOp_of_fields {m : OpcodeMap} (hm : m.wf = true) {b : Byte} {op : Op} (hclass : classField b = opIsAlu op)
    (hnum : opField b = opNumber m op) (hhlt : op = .hlt → lowField b = m.hlt) (hcli : op = .cli → lowField b = m.cli) :
    decodeOp m b = .ok op := by
  simp only [OpcodeMap.wf, OpcodeMap.controlDistinct, OpcodeMap.sysDistinct, OpcodeMap.aluDistinct, Bool.and_eq_true,
    decide_eq_true_eq, List.nodup_cons, List.mem_cons, not_or] at hm
  obtain ⟨⟨hcontrol, hsys⟩, halu⟩ := hm
  unfold decodeOp
  rw [hclass, hnum]
  cases op with
  | hlt => rw [hhlt rfl]; clear halu; grind [opIsAlu, opNumber]
  | cli => rw [hcli rfl]; clear halu; grind [opIsAlu, opNumber]
  | data | ld | st | jmp | jmpr | jmpif | int => clear halu; grind [opIsAlu, opNumber]
  | add | sub | inc | dec | cmp | push | pop => clear hcontrol; grind [opIsAlu, opNumber]

/-- Decoding a byte list whose first byte selects a row of two bytes, and has an operand byte after it. -/
theorem decode_of_length_two {m : OpcodeMap} {ir : Byte} {op : Op} (h : decodeOp m ir = .ok op) (hl : opLength op = 2)
    (imm : Byte) (rest : List Byte) : decode m (ir :: imm :: rest) = .ok (instrOf op ir imm, rest) := by
  simp [decode, h, hl]

/-- Decoding a byte list whose first byte selects a row of one byte; the operand byte read is of no account. -/
theorem decode_of_length_one {m : OpcodeMap} {ir : Byte} {op : Op} (h : decodeOp m ir = .ok op) (hl : opLength op = 1)
    (imm : Byte) (rest : List Byte) : decode m (ir :: rest) = .ok (instrOf op ir imm, rest) := by
  simp [decode, h, hl, instrOf_of_length_one hl ir 0#8 imm]

/-- Settles O1: the first byte's fields select the instruction's row, and the row says whether an operand byte follows. -/
theorem decodeOfEncodeIsTheInstruction : Obligations.DecodeOfEncodeIsTheInstruction := by
  intro m hm i rest
  have hrow : decodeOp m (headByte m i) = .ok i.op := by
    refine decodeOp_of_fields hm (classField_headByte m i) (opField_headByte m i) ?_ ?_ <;>
      (rw [lowField_headByte]; cases i <;> simp [Instr.op, lowBits])
  have hinstr := instrOf_headByte m i
  rw [encode_eq]
  obtain hl | hl := opLength_cases i.op
  · rw [if_neg (by omega)]
    exact (decode_of_length_one hrow hl (operandOf i) rest).trans (by rw [hinstr])
  · rw [if_pos hl]
    exact (decode_of_length_two hrow hl (operandOf i) rest).trans (by rw [hinstr])

/-! ### From a byte to an instruction and back -/

/-- Encoding what was read from a byte and reading it again gives the same instruction: the fields of the row survive. -/
theorem instrOf_headByte_instrOf {m : OpcodeMap} {ir : Byte} {op : Op} (imm x : Byte) :
    instrOf op (headByte m (instrOf op ir imm)) x = instrOf op ir x := by
  cases op <;>
    simp [instrOf, headByte, lowBits, aField_regPair, bField_regPair, aField_regAlone, lowField_firstByte]

/-- Settles O2. Outside the SYS group the row depends on class and opcode alone; HLT and CLI are written with their own
sub-function, so there the low bits are the ones read. -/
theorem encodeOfDecodedKeepsTheUsedBits : Obligations.EncodeOfDecodedKeepsTheUsedBits := by
  intro m ir imm op h
  obtain ⟨hclass, hnum, hhlt, hcli⟩ := decodeOp_ok h
  have hclass' : classField (headByte m (instrOf op ir imm)) = classField ir := by simp [hclass]
  have hnum' : opField (headByte m (instrOf op ir imm)) = opField ir := by simp [hnum]
  refine ⟨headByte m (instrOf op ir imm), ?bytes, hclass', hnum', ?row, instrOf_headByte_instrOf imm⟩
  case bytes => rw [encode_eq, instrOf_op]; cases op <;> rfl
  case row =>
    by_cases hsys : op = .hlt ∨ op = .cli
    · rw [← h]
      refine decodeOp_congr hclass' hnum' ?_
      obtain rfl | rfl := hsys
      · simp [instrOf, lowBits, hhlt rfl]
      · simp [instrOf, lowBits, hcli rfl]
    · rw [not_or] at hsys
      exact decodeOp_congr_of_not_sys h hclass' hnum' hsys.1 hsys.2

/-- Settles O5: neither HLT nor CLI is among these rows, and their instruction is read from field A at most. -/
theorem unusedFieldsAreIgnored : Obligations.UnusedFieldsAreIgnored := by
  intro m b c imm op h hclass hnum
  have hrow : op ≠ .hlt → op ≠ .cli → decodeOp m c = .ok op := decodeOp_congr_of_not_sys h hclass hnum
  refine ⟨fun hop => ?noField, fun hop hA => ?fieldA⟩
  case noField => fin_cases hop <;> exact ⟨hrow nofun nofun, rfl⟩
  case fieldA => fin_cases hop <;> exact ⟨hrow nofun nofun, by simp [instrOf, hA]⟩

/-! ### The first-byte space (30_encoding.md R90) -/

/-- Settles O3, by evaluating the decoder on each of the 256 bytes. -/
theorem firstByteSpaceIsTheTable : Obligations.FirstByteSpaceIsTheTable := by
  unfold Obligations.FirstByteSpaceIsTheTable
  decide

/-- Settles O4, by evaluating the decoder on the eight words. -/
theorem sampleWordsDecode : Obligations.SampleWordsDecode := by
  unfold Obligations.SampleWordsDecode
  and_intros <;> rfl

end Sys2Proof
end

section
/-! PROOFS. Memory as a map (20_memory.md R51, R58): the canonical form is determined by what is read, a load sees the last
store, and consecutive stores are read back; and the two claims about bits that no machine step enters, the flags byte and
the ALU's shifts. -/

namespace Sys2Proof.Machine

/-! ### The canonical form is determined by what is read -/

/-- A canonical memory that reads as unlisted everywhere lists nothing. -/
theorem eq_nil_of_cellAt_unlisted {m : Memory} {lo : Nat} (hm : memWfFrom lo m = true)
    (h : ∀ a < 256, cellAt m a = unlistedByte) : m = [] := by
  cases m with
  | nil => rfl
  | cons c rest =>
    obtain ⟨k, v⟩ := c
    obtain ⟨-, hk, hv, -⟩ := memWfFrom_cons.mp hm
    exact absurd (by simpa [cellAt] using h k hk) hv

/-- Canonical memories that read alike cannot begin at different addresses: the lower entry has nothing to agree with. -/
theorem head_le_of_cellAt_eq {k k' : Nat} {v v' : Byte} {rest rest' : Memory} {lo lo' : Nat}
    (hm : memWfFrom lo ((k, v) :: rest) = true) (hn : memWfFrom lo' ((k', v') :: rest') = true)
    (h : ∀ a < 256, cellAt ((k, v) :: rest) a = cellAt ((k', v') :: rest') a) : k' ≤ k := by
  obtain ⟨-, hk, hv, -⟩ := memWfFrom_cons.mp hm
  by_contra hlt
  have hlow : cellAt ((k', v') :: rest') k = unlistedByte :=
    cellAt_of_lt (memWfFrom_cons.mpr ⟨Nat.le_refl k', (memWfFrom_cons.mp hn).2⟩) (by omega)
  exact hv ((by simp [cellAt] : v = cellAt ((k, v) :: rest) k).trans ((h k hk).trans hlow))

theorem eq_of_cellAt_eq {m n : Memory} {lo lo' : Nat} (hm : memWfFrom lo m = true) (hn : memWfFrom lo' n = true)
    (h : ∀ a < 256, cellAt m a = cellAt n a) : m = n := by
  induction m generalizing n lo lo' with
  | nil => exact (eq_nil_of_cellAt_unlisted hn fun a ha => (h a ha).symm).symm
  | cons c rest ih =>
    cases n with
    | nil => exact eq_nil_of_cellAt_unlisted hm h
    | cons d rest' =>
      obtain ⟨k, v⟩ := c
      obtain ⟨k', v'⟩ := d
      obtain rfl : k = k' := Nat.le_antisymm (head_le_of_cellAt_eq hn hm fun a ha => (h a ha).symm)
        (head_le_of_cellAt_eq hm hn h)
      obtain ⟨-, hk, -, hrest⟩ := memWfFrom_cons.mp hm
      obtain ⟨-, -, -, hrest'⟩ := memWfFrom_cons.mp hn
      obtain rfl : v = v' := by simpa [cellAt] using h k hk
      have htail : rest = rest' := by
        refine ih hrest hrest' fun a ha => ?_
        by_cases hak : k = a
        · rw [cellAt_of_lt hrest (by omega), cellAt_of_lt hrest' (by omega)]
        · simpa [cellAt, hak] using h a ha
      rw [htail]

/-- Settles O34, by induction along both lists, whose heads must agree. -/
theorem canonicalMemoriesAreEqual : Obligations.CanonicalMemoriesAreEqual := by
  intro m n hm hn h
  refine eq_of_cellAt_eq hm hn fun a ha => ?_
  simpa [memRead, Nat.mod_eq_of_lt ha] using h (BitVec.ofNat 8 a)

/-! ### Sequences of stores -/

/-- Settles O35, by induction on the stores, the first one moved into the memory. -/
theorem loadsSeeTheLastStore : Obligations.LoadsSeeTheLastStore := by
  intro m stores a hm
  induction stores generalizing m with
  | nil => exact ⟨hm, rfl⟩
  | cons c rest ih =>
    obtain ⟨b, v⟩ := c
    obtain ⟨hwf, hread⟩ := ih (memWrite m b v) (memWrite_wf hm b v)
    refine ⟨hwf, ?_⟩
    rw [storesDone, hread, lastStored]
    cases lastStored a rest with
    | some w => rfl
    | none => simp only [memRead_memWrite hm, eq_comm (a := b)]; split <;> rfl

/-- The bytes that a write of consecutive bytes puts there, where it does not come round to its own first byte. -/
theorem memRead_memWriteAll {m : Memory} (hm : m.wf = true) (a : Byte) (vs : List Byte) (hvs : vs.length ≤ 256) {i : Nat}
    (hi : i < vs.length) : memRead (memWriteAll m a vs) (a + BitVec.ofNat 8 i) = vs[i] := by
  induction vs generalizing m a i with
  | nil => simp at hi
  | cons v vs ih =>
    rw [List.length_cons] at hvs hi
    rw [memWriteAll]
    cases i with
    | zero =>
      rw [BitVec.add_zero, memRead_memWriteAll_of_not (memWrite_wf hm a v), memRead_memWrite hm,
        if_pos rfl, List.getElem_cons_zero]
      intro j hj
      bv_omega
    | succ j =>
      rw [List.getElem_cons_succ, ← ih (memWrite_wf hm a v) (a + 1#8) (by omega) (by omega)]
      congr 1
      rw [BitVec.ofNat_add, BitVec.add_comm (BitVec.ofNat 8 j), BitVec.add_assoc]

/-- Writing the same bytes at the same place again changes nothing. -/
theorem memWriteAll_memWriteAll {m : Memory} (hm : m.wf = true) (a : Byte) (vs : List Byte) (hvs : vs.length ≤ 256) :
    memWriteAll (memWriteAll m a vs) a vs = memWriteAll m a vs := by
  have hm' := memWriteAll_wf hm a vs
  refine canonicalMemoriesAreEqual _ _ (memWriteAll_wf hm' a vs) hm' fun x => ?_
  by_cases hx : ∃ i < vs.length, x = a + BitVec.ofNat 8 i
  · obtain ⟨i, hi, rfl⟩ := hx
    rw [memRead_memWriteAll hm' a vs hvs hi, memRead_memWriteAll hm a vs hvs hi]
  · exact memRead_memWriteAll_of_not hm' a x vs fun i hi heq => hx ⟨i, hi, heq⟩

/-! ### The flags byte (10_state.md R37) -/

/-- A bit of the flags byte is set by the flags that stand at its position. -/
theorem flagsByte_getLsbD (cfg : Config) (f : Flags) (j : Fin 8) : (flagsByte cfg f).getLsbD j =
    (f.c && decide (cfg.flagBitC = j) || f.s && decide (cfg.flagBitS = j) || f.z && decide (cfg.flagBitZ = j) ||
      f.e && decide (cfg.flagBitE = j) || f.l && decide (cfg.flagBitL = j)) := by
  simp only [flagsByte, BitVec.getLsbD_or, flagAt_getLsbD]

/-- Settles O33: with distinct positions one flag at most stands at a bit. -/
theorem flagsByteLayout : Obligations.FlagsByteLayout := by
  intro cfg f h
  simp only [Config.flagBitsApart, decide_eq_true_eq, List.nodup_cons, List.mem_cons, not_or] at h
  obtain ⟨⟨hcs, hcz, hce, hcl, -⟩, ⟨hsz, hse, hsl, -⟩, ⟨hze, hzl, -⟩, ⟨hel, -⟩, -⟩ := h
  simp only [flagsByte_getLsbD]
  refine ⟨?c, ?s, ?z, ?e, ?l, fun j hj => ?other⟩
  case c => simp [Ne.symm hcs, Ne.symm hcz, Ne.symm hce, Ne.symm hcl]
  case s => simp [hcs, Ne.symm hsz, Ne.symm hse, Ne.symm hsl]
  case z => simp [hcz, hsz, Ne.symm hze, Ne.symm hzl]
  case e => simp [hce, hse, hze, Ne.symm hel]
  case l => simp [hcl, hsl, hzl, hel]
  case other =>
    simp only [List.mem_cons, List.not_mem_nil, or_false, not_or] at hj
    obtain ⟨hc, hs, hz, he, hl⟩ := hj
    simp [Ne.symm hc, Ne.symm hs, Ne.symm hz, Ne.symm he, Ne.symm hl]

/-! ### The ALU's shifts (40_alu_unit.md R111, R112) -/

/-- Settles O32: a shift left multiplies, mod 256, and a shift right divides, by a power of two. -/
theorem aluShiftsByAtMostSeven : Obligations.AluShiftsByAtMostSeven := by
  intro cfg a b old n
  refine ⟨fun hb => ⟨?shl, ?shr⟩, alu_bits_flags .., alu_bits_flags ..⟩
  case shl =>
    have hres : (alu cfg (.bits .shl) a b old n).result = a <<< b.toNat := if_pos hb
    rw [hres, BitVec.toNat_shiftLeft, Nat.shiftLeft_eq]
  case shr =>
    have hres : (alu cfg (.bits .shr) a b old n).result = a >>> b.toNat := if_pos hb
    rw [hres, BitVec.toNat_ushiftRight, Nat.shiftRight_eq_div_pow]

end Sys2Proof.Machine
end

section
/-! PROOFS. What each instruction does (42_data_move.md to 46_stack.md): an equation for each meaning, the few rules for an
arithmetic instruction's result, and the claims about the instructions, frame included. -/

namespace Sys2Proof.Machine

/-! ### Registers and the frame of an instruction -/

@[simp] theorem readReg_fallThrough (q : Reg) (len : Nat) (s : State) : readReg q (fallThrough len s) = readReg q s := rfl

@[simp] theorem readReg_refreshFlags (q : Reg) (f : Flags) (s : State) : readReg q (refreshFlags f s) = readReg q s := rfl

/-- A state that differs in registers, IAR, SP, flags, memory and the draw counter alone agrees on all the rest. -/
theorem sameRest_of_update (s : State) (regs : Regs) (iar sp : Byte) (flags : Flags) (mem : Memory) (draws : Nat) :
    s.sameRest { s with regs, iar, sp, flags, mem, env := { s.env with draws } } := by
  unfold State.sameRest
  and_intros <;> rfl

/-! ### Data movement -/

theorem exec_data_eq (a : Reg) (imm : Byte) (s : State) :
    exec (.data a imm) s = .next (fallThrough 2 (writeReg a imm s)) := rfl

theorem exec_ld_eq (a b : Reg) (s : State) :
    exec (.ld a b) s = .next (fallThrough 1 (writeReg b (memRead s.mem (readReg a s)) s)) := by
  rw [← loadIndirect_eq]; rfl

theorem exec_st_eq (a b : Reg) (s : State) :
    exec (.st a b) s = .next (fallThrough 1 (storeByte (readReg a s) (readReg b s) s)) := by
  rw [← storeIndirect_eq]; rfl

/-- Settles O12, by the rule for a written register. -/
theorem dataLoadsTheOperandByte : Obligations.DataLoadsTheOperandByte := fun a imm s =>
  ⟨_, exec_data_eq a imm s, fun q => readReg_writeReg a q imm s, rfl, rfl, rfl, fun _ => rfl, rfl, sameRest_of_update ..⟩

/-- Settles O13: with `A = B` too the address is read before the register is written. -/
theorem ldLoadsThroughARegister : Obligations.LdLoadsThroughARegister := fun a b s =>
  ⟨_, exec_ld_eq a b s, fun q => readReg_writeReg b q _ s, rfl, rfl, rfl, fun _ => rfl, rfl, sameRest_of_update ..⟩

/-- Settles O14, by the rule for a read after a write. -/
theorem stStoresThroughARegister : Obligations.StStoresThroughARegister := fun a b s =>
  ⟨_, exec_st_eq a b s, fun hm x => memRead_memWrite hm _ x _, fun _ => rfl, rfl, rfl, rfl, rfl, sameRest_of_update ..⟩

/-! ### Control transfer -/

theorem exec_jmp_eq (imm : Byte) (s : State) : exec (.jmp imm) s = .next (s.setIar (s.env.cfg.progBase + imm)) := rfl

theorem exec_jmpr_eq (a : Reg) (s : State) : exec (.jmpr a) s = .next (s.setIar (readReg a s)) := rfl

/-- JMPIF changes IAR alone, whether it branches or not. -/
theorem exec_jmpif_eq (cond : BitVec 4) (imm : Byte) (s : State) : exec (.jmpif cond imm) s =
    .next (s.setIar (if matchFlags s.env.cfg s.flags cond then s.env.cfg.progBase + imm else s.iar + 2#8)) := by
  simp only [exec, execJmpif]
  split <;> rfl

/-- The condition evaluator answers true for the carry selector with C, the zero selector with Z, and nothing else. -/
theorem matchFlags_iff {cfg : Config} (hne : cfg.condC ≠ cfg.condZ) (f : Flags) (code : BitVec 4) :
    matchFlags cfg f code = true ↔ (code = cfg.condC ∧ f.c = true) ∨ (code = cfg.condZ ∧ f.z = true) := by
  unfold matchFlags
  split
  · next hc => simp [hc, hne]
  · next hc =>
    split
    · next hz => simp [hz, hne.symm]
    · next hz => simp [hc, hz]

/-- Settles O15: both jumps write IAR alone, and JMP's sum is that of the bytes, mod 256. -/
theorem jumpsReachTheirTargets : Obligations.JumpsReachTheirTargets := fun s =>
  ⟨fun imm => ⟨_, exec_jmp_eq imm s, BitVec.toNat_add .., rfl⟩, fun a => exec_jmpr_eq a s⟩

/-- Settles O16, from what the condition evaluator answers. -/
theorem jmpifBranchesOnCarryOrZeroAlone : Obligations.JmpifBranchesOnCarryOrZeroAlone := by
  intro cond imm s hne
  rw [← matchFlags_iff hne, exec_jmpif_eq]
  exact ⟨fun taken => by rw [if_pos taken]; rfl, fun untaken => by rw [if_neg untaken]; rfl⟩

/-! ### System -/

/-- Settles O17: each of the three meanings is one update and the fall through. -/
theorem systemInstructionsSetTheirLatch : Obligations.SystemInstructionsSetTheirLatch := fun _ =>
  ⟨fun _ => rfl, rfl, rfl⟩

/-! ### Arithmetic -/

/-- What ADD, SUB, INC and DEC do with their inputs `x` and `y` and their destination `d`: the ALU's result is written, the
flags are refreshed, and IAR falls through. -/
def storeResult (op : ArithOp) (x y : Byte) (d : Reg) (s : State) : State :=
  fallThrough 1 (refreshFlags (runAlu op x y s).flags (writeReg d (runAlu op x y s).result s))

theorem exec_add_eq (a b : Reg) (s : State) :
    exec (.add a b) s = .next (storeResult .add (readReg a s) (readReg b s) b s) := rfl

theorem exec_sub_eq (a b : Reg) (s : State) :
    exec (.sub a b) s = .next (storeResult .subtract (readReg a s) (readReg b s) b s) := rfl

theorem exec_inc_eq (a : Reg) (s : State) :
    exec (.inc a) s = .next (storeResult .increment (readReg a s) 0#8 a s) := rfl

theorem exec_dec_eq (a : Reg) (s : State) :
    exec (.dec a) s = .next (storeResult .decrement (readReg a s) 0#8 a s) := rfl

theorem exec_cmp_eq (a b : Reg) (s : State) : exec (.cmp a b) s =
    .next (fallThrough 1 (refreshFlags (runAlu .compare (readReg a s) (readReg b s) s).flags s)) := rfl

section
variable (op : ArithOp) (x y : Byte) (d : Reg) (s : State)

theorem readReg_storeResult_of_ne {q : Reg} (h : q ≠ d) : readReg q (storeResult op x y d s) = readReg q s := by
  simp [storeResult, h]

theorem readReg_storeResult_self : readReg d (storeResult op x y d s) = arithResult op (arithWide op x y) := by
  simp [storeResult, runAlu_eq]

/-- The flags of an arithmetic instruction are those of its wide result; E and L are the two bits drawn. -/
theorem storeResult_flags : (storeResult op x y d s).flags = flagsOf s.env.cfg (arithWide op x y)
    (Config.draw s.env.draws) (Config.draw (s.env.draws + 1)) := rfl

theorem storeResult_flagsFollow : (storeResult op x y d s).flagsFollow s.env.cfg (arithWide op x y) :=
  flagsFollow_of_flags (storeResult_flags op x y d s)

/-- Beside the destination and the flags, only IAR and the draw counter change. -/
theorem storeResult_frame : (storeResult op x y d s).iar = s.iar + 1#8 ∧ (storeResult op x y d s).sp = s.sp ∧
    (∀ a, memRead (storeResult op x y d s).mem a = memRead s.mem a) ∧ s.sameRest (storeResult op x y d s) :=
  ⟨rfl, rfl, fun _ => rfl, sameRest_of_update ..⟩
end

/-- Settles O18: the sum of two bytes is not negative, so S is clear. -/
theorem addStoresTheWrappedSum : Obligations.AddStoresTheWrappedSum := by
  intro a b s
  refine ⟨_, exec_add_eq a b s, fun q hq => readReg_storeResult_of_ne _ _ _ b s hq, ?result,
    storeResult_flagsFollow .., flagsOf_s_eq_false ?nonneg .., storeResult_frame ..⟩
  case result =>
    rw [readReg_storeResult_self, arithResult, arithWide, wideOf, wideOf, ← Nat.cast_add, wrapByte_toNat]
  case nonneg => simp only [arithWide, wideOf]; omega

/-- Settles O19: the clamp of the difference, read as a natural number. -/
theorem subStoresTheClampedDifference : Obligations.SubStoresTheClampedDifference := by
  intro a b s
  refine ⟨_, exec_sub_eq a b s, fun q hq => readReg_storeResult_of_ne _ _ _ b s hq, ?result,
    storeResult_flagsFollow .., storeResult_frame ..⟩
  case result =>
    rw [readReg_storeResult_self, arithResult, arithWide, wideOf, wideOf]
    have ha := (readReg a s).isLt
    have hclamp := clampByte_toNat (w := ((readReg a s).toNat : Int) - (readReg b s).toNat) (by omega)
    split <;> omega

/-- Settles O20. INC's wide result is positive, DEC's is negative exactly for 0, where the clamp keeps 0. -/
theorem incWrapsAndDecStopsAtZero : Obligations.IncWrapsAndDecStopsAtZero := by
  intro a s
  have ha := (readReg a s).isLt
  refine ⟨⟨_, exec_inc_eq a s, fun q hq => readReg_storeResult_of_ne _ _ _ a s hq, ?incResult,
      storeResult_flagsFollow .., flagsOf_s_eq_false ?nonneg .., storeResult_frame ..⟩,
    ⟨_, exec_dec_eq a s, fun q hq => readReg_storeResult_of_ne _ _ _ a s hq, ?decResult,
      storeResult_flagsFollow .., (flagsOf_s ..).trans ?negative, storeResult_frame ..⟩⟩
  case incResult =>
    rw [readReg_storeResult_self, arithResult, arithWide, wideOf]
    exact wrapByte_toNat ((readReg a s).toNat + 1)
  case nonneg => simp only [arithWide, wideOf]; omega
  case decResult =>
    rw [readReg_storeResult_self, arithResult, arithWide, wideOf]
    have hclamp := clampByte_toNat (w := ((readReg a s).toNat : Int) - 1) (by omega)
    omega
  case negative =>
    rw [arithWide, wideOf, BitVec.toNat_eq, BitVec.toNat_zero]
    omega

/-- Settles O21: Compare's wide result is Subtract's, a difference between -255 and 255, where both zero rules agree. -/
theorem cmpSetsFlagsAlone : Obligations.CmpSetsFlagsAlone := by
  intro a b s
  have ha := (readReg a s).isLt
  have hb := (readReg b s).isLt
  refine ⟨_, exec_cmp_eq a b s, rfl, flagsFollow_of_flags rfl, ?zero, (flagsOf_s ..).trans ?sign,
    ⟨_, exec_sub_eq a b s, rfl, rfl, rfl⟩, rfl, rfl, fun _ => rfl, sameRest_of_update ..⟩
  case zero =>
    refine (flagsOf_z_of_abs_le ?_ ?_ ..).trans ?_
    all_goals simp only [arithWide, wideOf, BitVec.toNat_eq]; omega
  case sign => simp only [arithWide, wideOf]; omega

/-! ### The stack -/

/-- PUSH at the top of the stack region faults and does nothing else. -/
theorem exec_push_of_top (a : Reg) {s : State} (h : s.sp = 0xFF#8) :
    exec (.push a) s = .next (raiseFault .stackOverflow s) := if_pos h

/-- PUSH below the top stores the register at SP and moves SP up. -/
theorem exec_push_of_room (a : Reg) {s : State} (h : s.sp ≠ 0xFF#8) : exec (.push a) s =
    .next (fallThrough 1 ((s.setMem (memWrite s.mem s.sp (readReg a s))).setSp (s.sp + 1#8))) := if_neg h

theorem exec_pop_eq (a : Reg) (s : State) : exec (.pop a) s =
    .next (fallThrough 1 (writeReg a (memRead s.mem (s.sp - 1#8)) (s.setSp (s.sp - 1#8)))) := rfl

/-- Settles O22: below 0xFF the increment of SP does not wrap. -/
theorem pushStoresAtSpAndAdvances : Obligations.PushStoresAtSpAndAdvances := by
  intro a s hsp
  refine ⟨_, exec_push_of_room a hsp, fun hm x => memRead_memWrite hm _ x _, ?sp, rfl, rfl, rfl, rfl,
    sameRest_of_update ..⟩
  case sp =>
    change (s.sp + 1#8).toNat = _
    bv_omega

/-- Settles O24: the load is from SP moved down, and moving down from 0 wraps to 0xFF. -/
theorem popMovesDownAndLoads : Obligations.PopMovesDownAndLoads := by
  intro a s
  refine ⟨_, exec_pop_eq a s, ?sp, fun q => readReg_writeReg a q _ _, fun _ => rfl, rfl, rfl, rfl,
    sameRest_of_update ..⟩
  case sp =>
    change (s.sp - 1#8).toNat = _
    bv_omega

end Sys2Proof.Machine
end

section
/-! PROOFS. The stack as a whole (46_stack.md, stack discipline): PUSH then POP, a run of pushes as one write of consecutive
bytes, and pops that return what was pushed. -/

namespace Sys2Proof.Machine

/-! ### One push and one pop -/

/-- Settles O25: POP's address is SP moved back down, where PUSH has stored. -/
theorem pushThenPopRestoresTheStack : Obligations.PushThenPopRestoresTheStack := by
  intro a b s hm hsp
  refine ⟨_, _, exec_push_of_room a hsp, exec_pop_eq b _, fun q => ?reg, BitVec.add_sub_cancel .., fun x => ?mem, rfl, rfl,
    sameRest_of_update ..⟩
  case reg =>
    have hpopped : memRead (memWrite s.mem s.sp (readReg a s)) (s.sp + 1#8 - 1#8) = readReg a s := by
      rw [BitVec.add_sub_cancel, memRead_memWrite hm, if_pos rfl]
    exact (readReg_writeReg b q _ _).trans (if_congr Iff.rfl hpopped rfl)
  case mem => exact memRead_memWrite hm s.sp x _

/-! ### Instructions one after another -/

theorem execAll_cons {i : Instr} {is : List Instr} {s t : State} (h : exec i s = .next t) :
    execAll (i :: is) s = execAll is t := by
  simp [execAll, h]

theorem execAll_append {is js : List Instr} {s t : State} (h : execAll is s = .next t) :
    execAll (is ++ js) s = execAll js t := by
  induction is generalizing s with
  | nil => cases h; rfl
  | cons i is ih =>
    obtain ⟨u, hu⟩ := exec_next i s
    rw [execAll_cons hu] at h
    rw [List.cons_append, execAll_cons hu]
    exact ih h

/-! ### A run of pushes -/

/-- Where a push fits, SP is below the top. -/
theorem ne_top_of_room {sp : Byte} {n : Nat} (h : sp.toNat + (n + 1) ≤ 0xFF) : sp ≠ 0xFF#8 := by
  bv_omega

/-- Pushes that fit write the registers' bytes from SP upward, and move SP and IAR on by their number. -/
theorem execAll_push (rs : List Reg) (s : State) (h : s.sp.toNat + rs.length ≤ 0xFF) :
    execAll (rs.map .push) s = .next (((s.setMem (memWriteAll s.mem s.sp (rs.map (readReg · s)))).setSp
      (s.sp + BitVec.ofNat 8 rs.length)).setIar (s.iar + BitVec.ofNat 8 rs.length)) := by
  induction rs generalizing s with
  | nil => simp [execAll, memWriteAll, State.setMem, State.setSp, State.setIar]
  | cons r rs ih =>
    rw [List.length_cons] at h ⊢
    have hroom := ne_top_of_room h
    have hnext : (s.sp + 1#8).toNat + rs.length ≤ 0xFF := by bv_omega
    have hadd : ∀ a : Byte, a + 1#8 + BitVec.ofNat 8 rs.length = a + BitVec.ofNat 8 (rs.length + 1) := fun a => by
      rw [BitVec.ofNat_add, BitVec.add_comm (BitVec.ofNat 8 rs.length), BitVec.add_assoc]
    rw [List.map_cons, execAll_cons (exec_push_of_room r hroom), ih _ hnext, List.map_cons, memWriteAll, ← hadd, ← hadd]
    rfl

/-- Settles O26: the pushed bytes are read back from the one write they amount to. -/
theorem pushesFillTheStackUpward : Obligations.PushesFillTheStackUpward := by
  intro rs s hm h
  refine ⟨_, execAll_push rs s h, ?sp, rfl, rfl, fun k hk => ?mem⟩
  case sp =>
    change (s.sp + BitVec.ofNat 8 rs.length).toNat = _
    bv_omega
  case mem =>
    have hread := memRead_memWriteAll hm s.sp (rs.map (readReg · s)) (by rw [List.length_map]; omega) (i := k)
      (by rwa [List.length_map])
    rwa [List.getElem_map] at hread

/-! ### Pops that return what was pushed -/

/-- A register written with what it holds is the same register file. -/
theorem putReg_getReg (g : Regs) (r : Reg) : putReg g r (getReg g r) = g := by
  cases r <;> rfl

/-- Pushes and the pops in the opposite order restore registers, SP and flags, and touch no byte below SP: the byte an outer
push stored is still there for its pop. -/
theorem execAll_push_pop (rs : List Reg) (s : State) (hm : s.mem.wf = true) (h : s.sp.toNat + rs.length ≤ 0xFF) :
    ∃ t, execAll (rs.map .push ++ rs.reverse.map .pop) s = .next t ∧ t.regs = s.regs ∧ t.sp = s.sp ∧ t.flags = s.flags ∧
      ∀ x, x.toNat < s.sp.toNat → memRead t.mem x = memRead s.mem x := by
  induction rs generalizing s with
  | nil => exact ⟨s, rfl, rfl, rfl, rfl, fun _ _ => rfl⟩
  | cons r rs ih =>
    rw [List.length_cons] at h
    have hroom := ne_top_of_room h
    have hnext : (s.sp + 1#8).toNat + rs.length ≤ 0xFF := by bv_omega
    obtain ⟨t, hrun, hregs, hsp, hflags, hmem⟩ := ih
      (fallThrough 1 ((s.setMem (memWrite s.mem s.sp (readReg r s))).setSp (s.sp + 1#8))) (memWrite_wf hm _ _) hnext
    have hbelow : ∀ x, x.toNat ≤ s.sp.toNat → memRead t.mem x = if x = s.sp then readReg r s else memRead s.mem x :=
      fun x hx => (hmem x (Nat.lt_of_le_of_lt hx (by change _ < (s.sp + 1#8).toNat; bv_omega))).trans
        (memRead_memWrite hm _ x _)
    have hback : t.sp - 1#8 = s.sp := by rw [hsp]; exact BitVec.add_sub_cancel ..
    refine ⟨fallThrough 1 (writeReg r (memRead t.mem (t.sp - 1#8)) (t.setSp (t.sp - 1#8))), ?run, ?regs, hback, hflags,
      fun x hx => ?mem⟩
    case run =>
      rw [List.map_cons, List.cons_append, execAll_cons (exec_push_of_room r hroom), List.reverse_cons, List.map_append,
        ← List.append_assoc, execAll_append hrun]
      exact execAll_cons (exec_pop_eq r t)
    case regs =>
      change putReg t.regs r (memRead t.mem (t.sp - 1#8)) = s.regs
      rw [hback, hbelow s.sp (Nat.le_refl _), if_pos rfl, hregs]
      exact putReg_getReg s.regs r
    case mem =>
      exact (hbelow x hx.le).trans (if_neg fun heq => by rw [heq] at hx; omega)

/-- Settles O27: the strengthened run of pushes and pops, without its clause about memory. -/
theorem popsReturnPushesInReverse : Obligations.PopsReturnPushesInReverse := by
  intro rs s hm h
  obtain ⟨t, hrun, hregs, hsp, hflags, -⟩ := execAll_push_pop rs s hm h
  exact ⟨t, hrun, hregs, hsp, hflags⟩

end Sys2Proof.Machine
end

section
/-! PROOFS. The CPU's step (41_cycle.md): when it exists, what it does with an assigned and with an unassigned byte, what it
returns, and that it passes over the peripherals' buffers, so that a delivery may come before it or after it. -/

namespace Sys2Proof.Machine

/-! ### The instruction that stands at IAR -/

/-- The instruction that a row reads from the bytes at IAR. -/
abbrev State.rowInstr (s : State) (op : Op) : Instr :=
  instrOf op (memRead s.mem s.iar) (memRead s.mem (s.iar + 1#8))

/-- Only the row of HLT is read as HLT. -/
theorem instrOf_eq_hlt_iff (op : Op) (ir imm : Byte) : instrOf op ir imm = .hlt ↔ op = .hlt := by
  cases op <;> simp [instrOf]

/-- Bytes at IAR that decode are a row's first byte and the instruction of that row: the converse of `decode_nextBytes`. -/
theorem row_of_decode_nextBytes {m : OpcodeMap} {s : State} {i : Instr} {tail : List Byte}
    (h : decode m s.nextBytes = .ok (i, tail)) :
    ∃ op, decodeOp m (memRead s.mem s.iar) = .ok op ∧ i = s.rowInstr op := by
  cases hop : decodeOp m (memRead s.mem s.iar) with
  | error e => simp [decode, State.nextBytes, hop] at h
  | ok op =>
    obtain ⟨rest, hrest⟩ := decode_nextBytes hop
    rw [hrest] at h
    cases h
    exact ⟨op, rfl, rfl⟩

/-! ### When the CPU has a step, and what it answers -/

theorem cycle_of_fault {s : State} {f : FaultRecord} (h : s.fault = some f) : cycle s = .fault (.faultLatched f) := by
  simp [cycle, h]

theorem cycle_of_halted {s : State} (hf : s.fault = none) (hh : s.halted = true) : cycle s = .fault .halted := by
  simp [cycle, hf, hh]

/-- A step on a byte that is no instruction. -/
theorem cycle_of_error {s : State} {e : DecodeError} (hs : s.canStep)
    (h : decodeOp s.env.cfg.opc (memRead s.mem s.iar) = .error e) : cycle s = .next (unknownOpcode (fetch s)) := by
  obtain ⟨hh, hf⟩ := hs
  simp [cycle, hf, hh, runInstruction, fetch_eq, h]

/-- A step on an assigned byte executes the row's instruction: the converse of the second case of `cycle_cases`. -/
theorem cycle_of_ok {s u : State} {op : Op} (hs : s.canStep)
    (hop : decodeOp s.env.cfg.opc (memRead s.mem s.iar) = .ok op)
    (hexec : exec (s.rowInstr op) (s.fetched op) = .next u) :
    cycle s = .next (u.setReply (cycleReply (s.rowInstr op) u)) := by
  obtain ⟨hh, hf⟩ := hs
  have hir : (s.fetched op).ir = memRead s.mem s.iar := by rw [State.fetched_eq]; rfl
  have hrun : runInstruction s = finishCycle (s.rowInstr op) (exec (s.rowInstr op) (s.fetched op)) := by
    rw [State.rowInstr, ← instrOf_fetched, ← hir]
    simp only [runInstruction, State.fetched, fetch_eq, State.setIr_env, State.setMar_env, State.setIr_ir, hop]
  rw [hexec] at hrun
  simpa [cycle, hf, hh, finishCycle] using hrun

/-- Every state that has a step answers a next state. -/
theorem cycle_next {s : State} (hs : s.canStep) : ∃ t, cycle s = .next t := by
  cases hop : decodeOp s.env.cfg.opc (memRead s.mem s.iar) with
  | error e => exact ⟨_, cycle_of_error hs hop⟩
  | ok op =>
    obtain ⟨u, hu⟩ := exec_next (s.rowInstr op) (s.fetched op)
    exact ⟨_, cycle_of_ok hs hop hu⟩

theorem tick_of_fault {s : State} {f : FaultRecord} (h : s.fault = some f) : tick s = .fault (.faultLatched f) := by
  simp [tick, h]

/-- A tick with no fault latched runs the services. -/
theorem tick_of_no_fault {s : State} (h : s.fault = none) :
    tick s = .next ((serviceAll s).setReply (callReply (serviceAll s).fault)) := by
  simp [tick, h]

/-- Settles O9: each latch has a call of its own name where there is no step. -/
theorem stepsExistExactlyWhenEnabled : Obligations.StepsExistExactlyWhenEnabled := by
  refine fun s => ⟨⟨fun ⟨t, h⟩ => ?enabled, cycle_next⟩, ⟨fun ⟨t, h⟩ => (tick_cases h).1, fun h => ⟨_, tick_of_no_fault h⟩⟩,
    cycle_of_halted, fun f h => ⟨cycle_of_fault h, tick_of_fault h⟩⟩
  case enabled =>
    obtain ⟨hf, hh, -⟩ := cycle_cases h
    exact ⟨hh, hf⟩

/-- The bytes without a row under the default opcode numbers, by evaluating the decoder on each of the 256 bytes. -/
theorem decodeOp_default_error_iff : ∀ b : Byte, decodeOp defaultOpcodes b = .error .unknownOpcode ↔
    (0x72 ≤ b.toNat ∧ b.toNat ≤ 0x7F) ∨ 0xF0 ≤ b.toNat := by decide

/-- Settles O10; the decoder has one name for its refusals. -/
theorem unassignedByteRaisesUnknownOpcode : Obligations.UnassignedByteRaisesUnknownOpcode := by
  refine ⟨fun s e hs h => cycle_of_error hs h, fun b => (?_ : _ ↔ _).trans (decodeOp_default_error_iff b)⟩
  exact ⟨fun ⟨e, h⟩ => h.trans (by rw [decodeOp_error h]), fun h => ⟨_, h⟩⟩

/-- Settles O23. A CPU step that meets PUSH at the top executes it, and the fault is what it returns. -/
theorem pushAtTheTopRaisesStackOverflow : Obligations.PushAtTheTopRaisesStackOverflow := by
  intro s hs hop hsp
  have hexec : exec (s.rowInstr .push) (s.fetched .push) = .next (raiseFault .stackOverflow (s.fetched .push)) :=
    exec_push_of_top _ (by rw [State.fetched_eq]; exact hsp)
  rw [cycle_of_ok hs hop hexec, State.fetched_eq]
  rfl

/-! ### What a step returns -/

/-- Settles O8: a step on an unassigned byte faults; else the reply looks at the fault and at whether the row is HLT. -/
theorem cycleReturnsFalseExactlyForHlt : Obligations.CycleReturnsFalseExactlyForHlt := by
  intro s t h
  obtain ⟨-, -, ⟨-, rfl⟩ | ⟨op, u, hop, -, rfl⟩⟩ := cycle_cases h
  · exact ⟨fun hnone => absurd hnone (Option.some_ne_none _), fun f hf => congrArg Reply.error (Option.some.inj hf)⟩
  · simp only [State.setReply_fault, State.setReply_env_reply, cycleReply]
    refine ⟨fun hnone => ?_, fun f hf => by rw [hf]⟩
    simp [hnone, hop, instrOf_eq_hlt_iff, em']

/-! ### The step that a pending call of cycle() makes -/

/-- The host's next call is `cycle()` when it is listed first, and when none is listed. -/
theorem nextIs_cycle_iff (s : State) :
    s.nextIs .cycle ↔ ∃ rest, (s.env.calls = [] ∧ rest = []) ∨ s.env.calls = .cycle :: rest := by
  unfold State.nextIs
  cases s.env.calls <;> simp [nextCall]

theorem step_eq_cycle {s : State} {rest : List HostCall}
    (h : (s.env.calls = [] ∧ rest = []) ∨ s.env.calls = .cycle :: rest) : step s = cycle (s.setCalls rest) := by
  obtain ⟨h, rfl⟩ | h := h <;> simp only [step, h, nextCall, hostCall]

/-- Settles O6, from the bytes at IAR to their row, and from the row to the step. -/
theorem stepRunsTheDecodedInstruction : Obligations.StepRunsTheDecodedInstruction := by
  intro s i tail rest hs hcalls hdecode
  obtain ⟨op, hop, rfl⟩ := row_of_decode_nextBytes hdecode
  obtain ⟨t, ht⟩ := exec_next (s.rowInstr op) ((s.setCalls rest).fetched op)
  refine ⟨t, ?exec, ?step⟩
  case exec =>
    rw [instrLength, instrOf_op, ← ht, State.fetched_eq]
    rfl
  case step =>
    rw [step_eq_cycle hcalls]
    exact cycle_of_ok (s := s.setCalls rest) hs hop ht

/-- A step in a state that is about to run `i` executes `i`, fetched, and records what `cycle()` returns. -/
theorem step_of_runs {s t : State} {i : Instr} (hruns : s.runs i) (h : step s = .next t) :
    ∃ rest op u, exec i ((s.setCalls rest).fetched op) = .next u ∧ t = u.setReply (cycleReply i u) := by
  obtain ⟨hnext, tail, hdecode⟩ := hruns
  obtain ⟨rest, hcalls⟩ := (nextIs_cycle_iff s).mp hnext
  obtain ⟨op, hop, rfl⟩ := row_of_decode_nextBytes hdecode
  rw [step_eq_cycle hcalls] at h
  obtain ⟨-, -, ⟨herror, -⟩ | ⟨op', u, hop', hexec, ht⟩⟩ := cycle_cases h
  · exact absurd (hop.symm.trans herror) nofun
  · obtain rfl : op = op' := Except.ok.inj (hop.symm.trans hop')
    exact ⟨rest, op, u, hexec, ht⟩

/-- Settles O11: the fetch reads the memory that ST left, and nothing else. -/
theorem storeIsSeenByTheNextFetch : Obligations.StoreIsSeenByTheNextFetch := by
  intro s t a b hm hruns h
  obtain ⟨rest, op, u, hexec, rfl⟩ := step_of_runs hruns h
  rw [exec_st_eq, State.fetched_eq] at hexec
  cases hexec
  refine ⟨rfl, (memRead_memWrite hm _ (s.iar + 1#8) _).trans ?_⟩
  simp only [eq_comm (a := s.iar + 1#8)]
  rfl

/-! ### What the CPU cannot see -/

/-- An instruction changes registers, IAR, SP, INT, flags, IACK, HALTED, FAULT, memory and the draw counter at most. -/
theorem exec_frame {i : Instr} {s u : State} (h : exec i s = .next u) :
    u = { s with regs := u.regs, iar := u.iar, sp := u.sp, int := u.int, flags := u.flags, iack := u.iack,
                 halted := u.halted, fault := u.fault, mem := u.mem, env := { s.env with draws := u.env.draws } } := by
  cases i with
  | jmpif cond imm => rw [exec_jmpif_eq] at h; cases h; rfl
  | push a =>
    by_cases hsp : s.sp = 0xFF#8
    · rw [exec_push_of_top a hsp] at h; cases h; rfl
    · rw [exec_push_of_room a hsp] at h; cases h; rfl
  | data | ld | st | jmp | jmpr | int | hlt | cli | add | sub | inc | dec | cmp | pop => cases h; rfl

/-- Other contents of the peripherals' buffers, and another last reply. -/
def State.withBuffers (k p : List Byte) (r : Reply) (s : State) : State := ((s.setKbuf k).setPix p).setReply r

/-- An instruction does the same with other buffers, and carries them along. -/
theorem exec_withBuffers {i : Instr} {s u : State} (h : exec i s = .next u) (k p : List Byte) (r : Reply) :
    exec i (s.withBuffers k p r) = .next (u.withBuffers k p r) := by
  cases i with
  | jmpif cond imm => rw [exec_jmpif_eq] at h ⊢; cases h; rfl
  | push a =>
    by_cases hsp : s.sp = 0xFF#8
    · rw [exec_push_of_top a hsp] at h; cases h; exact exec_push_of_top a hsp
    · rw [exec_push_of_room a hsp] at h; cases h; exact exec_push_of_room a hsp
  | data | ld | st | jmp | jmpr | int | hlt | cli | add | sub | inc | dec | cmp | pop => cases h; rfl

/-- A CPU step does the same with other buffers, and carries them along; the reply is its own. -/
theorem cycle_withBuffers {s t : State} (h : cycle s = .next t) (k p : List Byte) (r : Reply) :
    cycle (s.withBuffers k p r) = .next (t.withBuffers k p t.env.reply) := by
  obtain ⟨hf, hh, ⟨hop, rfl⟩ | ⟨op, u, hop, hexec, rfl⟩⟩ := cycle_cases h
  · exact cycle_of_error (s := s.withBuffers k p r) ⟨hh, hf⟩ hop
  · rw [State.fetched_eq] at hexec
    refine cycle_of_ok (s := s.withBuffers k p r) (u := u.withBuffers k p r) ⟨hh, hf⟩ hop ?_
    rw [State.fetched_eq]
    exact exec_withBuffers hexec k p r

/-- Settles O55; where the CPU is stuck, HALTED and FAULT alone say so. -/
theorem cpuDoesNotSeeThePeripheralBuffers : Obligations.CpuDoesNotSeeThePeripheralBuffers := by
  refine fun s k p => ⟨fun t h => cycle_withBuffers h k p s.env.reply, fun f h => ?stuck⟩
  case stuck =>
    cases hf : s.fault with
    | some g =>
      rw [← h, cycle_of_fault hf]
      exact cycle_of_fault hf
    | none =>
      cases hh : s.halted with
      | true =>
        rw [← h, cycle_of_halted hf hh]
        exact cycle_of_halted hf hh
      | false =>
        obtain ⟨t, ht⟩ := cycle_next ⟨hh, hf⟩
        rw [ht] at h
        cases h

/-- A CPU step leaves KBUF, PIX and the configuration. -/
theorem cycle_keeps_buffers {s t : State} (h : cycle s = .next t) :
    t.kbuf = s.kbuf ∧ t.pix = s.pix ∧ t.env.cfg = s.env.cfg := by
  obtain ⟨-, -, ⟨-, rfl⟩ | ⟨op, u, -, hexec, rfl⟩⟩ := cycle_cases h
  · exact ⟨rfl, rfl, rfl⟩
  · rw [State.fetched_eq] at hexec
    rw [exec_frame hexec]
    exact ⟨rfl, rfl, rfl⟩

/-- Settles O56: a delivery changes KBUF and the reply alone, and by as much after the step as before it. -/
theorem deliveryCommutesWithACpuStep : Obligations.DeliveryCommutesWithACpuStep := by
  intro s t p v h
  obtain ⟨hkbuf, hpix, hcfg⟩ := cycle_keeps_buffers h
  rw [deliver_eq, deliver_eq, hkbuf, hcfg]
  generalize (if p = .keyboard ∧ s.kbuf.length < s.env.cfg.kbdMax then s.kbuf ++ [v] else s.kbuf) = k
  refine (cycle_withBuffers h k s.pix .nothing).trans ?_
  rw [← hpix]
  rfl

end Sys2Proof.Machine
end

section
/-! PROOFS. The peripherals (60_exceptions.md): what each service needs in order to act, which services of a tick act at
all, and from this the claims about deliveries and ticks. -/

namespace Sys2Proof

/-! ### What R4 says of a configuration -/

theorem Config.sourceValues_of_wf {cfg : Config} (h : cfg.wf = true) :
    cfg.kbdMax = 10 ∧ cfg.intScreen = 1#8 ∧ cfg.intKeyboard = 2#8 := by
  simp only [Config.wf, Config.sourceValues, Bool.and_eq_true, decide_eq_true_eq] at h
  exact h.2

theorem Config.kbdAddrReg_ne_kbdCountReg {cfg : Config} (h : cfg.wf = true) : cfg.kbdAddrReg ≠ cfg.kbdCountReg := by
  simp only [Config.wf, Config.keyboardRegsApart, Bool.and_eq_true, decide_eq_true_eq] at h
  exact h.1.1.2

/-- The program region ends below the top of the address space. -/
theorem Config.stackBase_le_of_wf {cfg : Config} (h : cfg.wf = true) : cfg.progBase.toNat + cfg.progCap ≤ 0xFF := by
  simp only [Config.wf, Config.stackFits, Bool.and_eq_true, decide_eq_true_eq] at h
  exact h.1.1.1.1.1.1.2

/-- The two peripherals answer to different codes. -/
theorem Config.intScreen_ne_intKeyboard {cfg : Config} (h : cfg.wf = true) : cfg.intScreen ≠ cfg.intKeyboard := by
  obtain ⟨-, hscreen, hkeyboard⟩ := Config.sourceValues_of_wf h
  rw [hscreen, hkeyboard]
  decide

end Sys2Proof

namespace Sys2Proof.Machine

theorem State.wf_iff (s : State) : s.wf = true ↔ s.env.cfg.wf = true ∧ s.mem.wf = true ∧
    s.kbuf.length ≤ s.env.cfg.kbdMax ∧ s.pix.length = s.env.cfg.pixels := by
  simp [State.wf, and_assoc]

/-! ### What a service needs in order to act, and what it leaves -/

theorem screenProcess_of_int_ne {s : State} (h : s.int ≠ s.env.cfg.intScreen) : screenProcess s = s := if_neg h

/-- The screen service writes FAULT and PIX at most. -/
theorem screenProcess_frame (s : State) :
    screenProcess s = { s with fault := (screenProcess s).fault, pix := (screenProcess s).pix } := by
  obtain ⟨-, h⟩ | ⟨-, -, h⟩ | ⟨-, -, h⟩ := screenProcess_cases s
  · rw [h]
  · rw [h]; rfl
  · rw [h]; rfl

theorem keyboardProcess_of_int_ne {s : State} (h : s.int ≠ s.env.cfg.intKeyboard) : keyboardProcess s = s :=
  if_neg fun hs => h hs.1

theorem keyboardProcess_of_empty {s : State} (h : s.kbuf = []) : keyboardProcess s = s :=
  if_neg fun hs => by simp [h] at hs

/-- The keyboard service writes registers, memory and KBUF at most. -/
theorem keyboardProcess_frame (s : State) : keyboardProcess s =
    { s with regs := (keyboardProcess s).regs, mem := (keyboardProcess s).mem, kbuf := (keyboardProcess s).kbuf } := by
  obtain ⟨-, h⟩ | ⟨-, -, h⟩ := keyboardProcess_cases s
  · rw [h]
  · rw [h]; rfl

/-! ### Which services of a tick act -/

/-- With an acknowledgement pending no key is left for the keyboard service. -/
theorem serviceAll_acknowledging {s : State} (h : s.iack = true) : serviceAll s = screenProcess (acknowledge s) := by
  have hempty : (screenProcess (acknowledge s)).kbuf = [] := by
    rw [screenProcess_frame, acknowledge_eq]; rfl
  simp only [serviceAll, h, if_true, keyboardProcess_of_empty hempty, ite_self]

theorem serviceAll_of_no_ack {s : State} (h : s.iack = false) : serviceAll s =
    if (screenProcess s).fault.isSome then screenProcess s else keyboardProcess (screenProcess s) := by
  simp [serviceAll, h]

/-- At a code that is not the keyboard's, the screen service is the whole tick. -/
theorem serviceAll_of_int_ne_keyboard {s : State} (hack : s.iack = false) (hint : s.int ≠ s.env.cfg.intKeyboard) :
    serviceAll s = screenProcess s := by
  have hkey : keyboardProcess (screenProcess s) = screenProcess s := by
    refine keyboardProcess_of_int_ne ?_
    rw [screenProcess_frame]
    exact hint
  rw [serviceAll_of_no_ack hack, hkey, ite_self]

/-- At a code that is not the screen's, the keyboard service is the whole tick. -/
theorem serviceAll_of_int_ne_screen {s : State} (hf : s.fault = none) (hack : s.iack = false)
    (hint : s.int ≠ s.env.cfg.intScreen) : serviceAll s = keyboardProcess s := by
  rw [serviceAll_of_no_ack hack, screenProcess_of_int_ne hint, hf]
  rfl

/-- A tick writes registers, INT, IACK, FAULT, memory and the peripherals' buffers at most. -/
theorem serviceAll_frame (s : State) : serviceAll s =
    { s with regs := (serviceAll s).regs, int := (serviceAll s).int, iack := (serviceAll s).iack,
             fault := (serviceAll s).fault, mem := (serviceAll s).mem, kbuf := (serviceAll s).kbuf,
             pix := (serviceAll s).pix } := by
  cases hack : s.iack with
  | true => rw [serviceAll_acknowledging hack, screenProcess_frame, acknowledge_eq]; rfl
  | false =>
    rw [serviceAll_of_no_ack hack]
    split
    · rw [screenProcess_frame]
    · rw [keyboardProcess_frame, screenProcess_frame]

/-! ### Deliveries -/

/-- Settles O36: the step is the delivery, which changes KBUF and the reply alone. -/
theorem deliveriesReachTheKeyboardBuffer : Obligations.DeliveriesReachTheKeyboardBuffer := by
  refine fun s v rest => ⟨fun h => ?keyboard, fun h => ?screen⟩
  case keyboard => simp only [step, h, nextCall, hostCall, deliver_eq, true_and]; rfl
  case screen => simp only [step, h, nextCall, hostCall, deliver_eq]; rfl

/-! ### Ticks -/

/-- A tick whose services raise no fault returns ok. -/
theorem tick_eq_ok {s u : State} (hf : s.fault = none) (hu : serviceAll s = u) (hok : u.fault = none) :
    tick s = .next (u.setReply .ok) := by
  rw [tick_of_no_fault hf, hu, hok]; rfl

/-- A tick whose services raise a fault returns it. -/
theorem tick_eq_error {s u : State} {f : FaultRecord} (hf : s.fault = none) (hu : serviceAll s = u)
    (herror : u.fault = some f) : tick s = .next (u.setReply (.error f)) := by
  rw [tick_of_no_fault hf, hu, herror]; rfl

/-- Settles O37: the drain is one write of consecutive bytes, at most KBD_MAX of them, so it does not wrap. -/
theorem keyboardServiceDrainsTheBuffer : Obligations.KeyboardServiceDrainsTheBuffer := by
  intro s hs hf hack hint
  obtain ⟨hcfg, hm, hlen, -⟩ := (State.wf_iff s).mp hs
  obtain ⟨hmax, -, -⟩ := Config.sourceValues_of_wf hcfg
  have hscreen : s.int ≠ s.env.cfg.intScreen := by
    rw [hint]; exact (Config.intScreen_ne_intKeyboard hcfg).symm
  have hservice := serviceAll_of_int_ne_screen hf hack hscreen
  refine ⟨fun hempty => tick_eq_ok hf (hservice.trans (keyboardProcess_of_empty hempty)) hf, fun hkeys => ?drain⟩
  case drain =>
    obtain ⟨hno, -⟩ | ⟨-, -, hdrain⟩ := keyboardProcess_cases s
    · exact absurd ⟨hint, List.length_pos_iff.mpr hkeys⟩ hno
    refine ⟨_, tick_eq_ok hf (hservice.trans hdrain) hf, fun i hi => memRead_memWriteAll hm _ s.kbuf (by omega) hi,
      fun x hx => memRead_memWriteAll_of_not hm _ x s.kbuf hx, ?address, ?count, fun q haddr hcount => ?others, rfl⟩
    case address =>
      refine (getReg_putReg ..).trans ((if_neg (Config.kbdAddrReg_ne_kbdCountReg hcfg)).trans ?_)
      exact (getReg_putReg ..).trans (if_pos rfl)
    case count =>
      refine (congrArg BitVec.toNat ((getReg_putReg ..).trans (if_pos rfl))).trans ?_
      rw [BitVec.toNat_ofNat]
      omega
    case others =>
      exact (getReg_putReg ..).trans ((if_neg hcount).trans ((getReg_putReg ..).trans (if_neg haddr)))

/-- Settles O38, by the two cases of the screen service at its code. -/
theorem screenServiceWritesOnePixelOrFaults : Obligations.ScreenServiceWritesOnePixelOrFaults := by
  intro s hs hf hack hint idx
  obtain ⟨hcfg, -, -, hpix⟩ := (State.wf_iff s).mp hs
  have hkeyboard : s.int ≠ s.env.cfg.intKeyboard := by
    rw [hint]; exact Config.intScreen_ne_intKeyboard hcfg
  have hservice := serviceAll_of_int_ne_keyboard hack hkeyboard
  obtain ⟨hno, -⟩ | ⟨-, hout, hfault⟩ | ⟨-, hin, hwrite⟩ := screenProcess_cases s
  · exact absurd hint hno
  · exact ⟨fun hin => absurd hout (Nat.not_le.mpr hin), fun _ => tick_eq_error hf (hservice.trans hfault) rfl⟩
  · refine ⟨fun _ => ⟨_, tick_eq_ok hf (hservice.trans hwrite) hf, ?pixel, fun j hj => ?others, rfl⟩,
      fun hout => absurd hin (Nat.not_lt.mpr hout)⟩
    case pixel => exact List.getElem?_set_self (by rw [hpix]; exact hin)
    case others => exact List.getElem?_set_ne hj.symm

/-- After the acknowledgement the screen's code is in INT only where it was and ACK_CLEARS_INT does not hold: the code is
not 0. -/
theorem acknowledge_int_ne_screen {s : State} (hcfg : s.env.cfg.wf = true)
    (h : s.env.cfg.ackClearsInt = true ∨ s.int ≠ s.env.cfg.intScreen) :
    (acknowledge s).int ≠ (acknowledge s).env.cfg.intScreen := by
  obtain ⟨-, hcode, -⟩ := Config.sourceValues_of_wf hcfg
  rw [acknowledge_eq]
  change (if s.env.cfg.ackClearsInt then 0#8 else s.int) ≠ s.env.cfg.intScreen
  split
  · rw [hcode]; decide
  · next hkept => exact h.resolve_left hkept

/-- Such an acknowledgement is the whole tick. -/
theorem serviceAll_eq_acknowledge {s : State} (hcfg : s.env.cfg.wf = true) (hack : s.iack = true)
    (h : s.env.cfg.ackClearsInt = true ∨ s.int ≠ s.env.cfg.intScreen) : serviceAll s = acknowledge s :=
  (serviceAll_acknowledging hack).trans (screenProcess_of_int_ne (acknowledge_int_ne_screen hcfg h))

@[simp] theorem acknowledge_fault (s : State) : (acknowledge s).fault = s.fault := by rw [acknowledge_eq]; rfl

/-- Settles O39: after the acknowledgement the screen service alone is left, and acts only where INT still holds its
code. -/
theorem acknowledgementComesBeforeTheServices : Obligations.AcknowledgementComesBeforeTheServices := by
  intro s hs hf hack blank idx
  obtain ⟨hcfg, -, -, -⟩ := (State.wf_iff s).mp hs
  have hf' : (acknowledge s).fault = none := (acknowledge_fault s).trans hf
  refine ⟨fun hidle => ?idle, fun hkept hint => ?held⟩
  case idle =>
    rw [tick_eq_ok hf (serviceAll_eq_acknowledge hcfg hack hidle) hf', acknowledge_eq]
    rfl
  case held =>
    have hservice := serviceAll_acknowledging hack
    have heq : acknowledge s = ((s.setKbuf []).setPix blank).setIack false := by simp [acknowledge, hkept]; rfl
    rw [heq] at hservice
    obtain ⟨hno, -⟩ | ⟨-, hout, hfault⟩ | ⟨-, hin, hwrite⟩ :=
      screenProcess_cases (((s.setKbuf []).setPix blank).setIack false)
    · exact absurd hint hno
    · refine ⟨fun hin => absurd hout (Nat.not_le.mpr hin), fun _ => ?_⟩
      rw [tick_eq_error hf (hservice.trans hfault) rfl]
      rfl
    · refine ⟨fun _ => ?_, fun hout => absurd hin (Nat.not_lt.mpr hout)⟩
      rw [tick_eq_ok hf (hservice.trans hwrite) hf]
      rfl

/-- Settles O40: neither service has its code, before the acknowledgement or after it. -/
theorem unclaimedCodesAreIgnored : Obligations.UnclaimedCodesAreIgnored := by
  intro s hs hf hint
  obtain ⟨hcfg, -, -, -⟩ := (State.wf_iff s).mp hs
  obtain ⟨-, hscreenCode, hkeyboardCode⟩ := Config.sourceValues_of_wf hcfg
  have hscreen : s.int ≠ s.env.cfg.intScreen := by rw [hscreenCode]; bv_omega
  have hkeyboard : s.int ≠ s.env.cfg.intKeyboard := by rw [hkeyboardCode]; bv_omega
  cases hack : s.iack with
  | false => exact tick_eq_ok hf ((serviceAll_of_int_ne_keyboard hack hkeyboard).trans (screenProcess_of_int_ne hscreen)) hf
  | true => exact tick_eq_ok hf (serviceAll_eq_acknowledge hcfg hack (.inr hscreen)) ((acknowledge_fault s).trans hf)

/-- Settles O41: the codes differ, so one of the two services does nothing, before the other and after it. -/
theorem servicesCommute : Obligations.ServicesCommute := by
  intro s hcfg hf
  by_cases hkeyboard : s.int = s.env.cfg.intKeyboard
  · have hscreen : s.int ≠ s.env.cfg.intScreen := by
      rw [hkeyboard]; exact (Config.intScreen_ne_intKeyboard hcfg).symm
    have hafter : screenProcess (keyboardProcess s) = keyboardProcess s := by
      refine screenProcess_of_int_ne ?_
      rw [keyboardProcess_frame]
      exact hscreen
    rw [hafter, screenProcess_of_int_ne hscreen, hf]
    rfl
  · have hafter : keyboardProcess (screenProcess s) = screenProcess s := by
      refine keyboardProcess_of_int_ne ?_
      rw [screenProcess_frame]
      exact hkeyboard
    rw [hafter, keyboardProcess_of_int_ne hkeyboard, ite_self]

/-- Settles O42, from the frame of the services: none of these fields is among those they write. -/
theorem tickLeavesFlagsSpIarMarIrOutAndHalted : Obligations.TickLeavesFlagsSpIarMarIrOutAndHalted := by
  intro s t h
  obtain ⟨-, rfl⟩ := tick_cases h
  rw [serviceAll_frame]
  and_intros <;> rfl

end Sys2Proof.Machine
end

section
/-! PROOFS. Boot and reset (70_reset_and_hazards.md): the two outcomes of a boot, the state that reset leaves, and that the
machine's past shows in neither. -/

namespace Sys2Proof.Machine

/-! ### The two outcomes of a boot -/

theorem boot_of_too_long {img : List Byte} {s : State} (h : s.env.cfg.progCap < img.length) : boot img s =
    ((s.setImage img).setFault (some ⟨.imageTooLarge, s.iar⟩)).setReply (.error ⟨.imageTooLarge, s.iar⟩) := if_pos h

theorem boot_of_fits {img : List Byte} {s : State} (h : img.length ≤ s.env.cfg.progCap) : boot img s =
    ((((s.setImage img).setMem (memWriteAll s.mem s.env.cfg.progBase img)).setMar s.env.cfg.progBase).setIar
      s.env.cfg.progBase).setReply .ok := if_neg (Nat.not_lt.mpr h)

/-- An image that fits the program region does not come round to its own first byte. -/
theorem length_le_of_fits {cfg : Config} (hcfg : cfg.wf = true) {img : List Byte} (h : img.length ≤ cfg.progCap) :
    img.length ≤ 256 := by
  have hstack := Config.stackBase_le_of_wf hcfg
  omega

/-- Settles O43: a boot that fits is one write of consecutive bytes. -/
theorem bootLoadsTheImage : Obligations.BootLoadsTheImage := by
  intro img s hs
  obtain ⟨hcfg, hm, -, -⟩ := (State.wf_iff s).mp hs
  refine ⟨boot_of_too_long, fun h => ?fits⟩
  case fits =>
    rw [boot_of_fits h]
    exact ⟨fun i hi => memRead_memWriteAll hm _ img (length_le_of_fits hcfg h) hi,
      fun x hx => memRead_memWriteAll_of_not hm _ x img hx, fun hempty => by rw [hempty]; rfl, rfl⟩

/-! ### The state that reset leaves -/

theorem resetMachine_of_too_long {s : State} (h : s.env.cfg.progCap < s.env.image.length) : resetMachine s =
    ((clearMachine s).setFault (some ⟨.imageTooLarge, s.iar⟩)).setReply (.error ⟨.imageTooLarge, s.iar⟩) :=
  boot_of_too_long (s := clearMachine s) h

theorem resetMachine_of_fits {s : State} (h : s.env.image.length ≤ s.env.cfg.progCap) : resetMachine s =
    ((((clearMachine s).setMem (memWriteAll [] s.env.cfg.progBase s.env.image)).setMar s.env.cfg.progBase).setIar
      s.env.cfg.progBase).setReply .ok := boot_of_fits (s := clearMachine s) h

/-- Settles O44: the image is booted onto empty memory, and STACK_BASE does not wrap in an admissible configuration. -/
theorem resetGivesEveryFieldItsValue : Obligations.ResetGivesEveryFieldItsValue := by
  intro s hcfg h t
  have hstack := Config.stackBase_le_of_wf hcfg
  have ht : t = _ := resetMachine_of_fits h
  rw [ht]
  refine ⟨fun q => by cases q <;> rfl, rfl, rfl, rfl, rfl, ?sp, rfl, rfl, rfl, rfl, rfl,
    fun i hi => memRead_memWriteAll memWf_nil _ _ (length_le_of_fits hcfg h) hi,
    fun x hx => memRead_memWriteAll_of_not memWf_nil _ x _ hx, rfl, List.length_replicate, fun p => List.eq_of_mem_replicate,
    rfl⟩
  case sp =>
    change (s.env.cfg.progBase + BitVec.ofNat 8 s.env.cfg.progCap).toNat = _
    bv_omega

/-- Settles O45: clearing leaves nothing of the machine's past but IAR and MAR, which a boot that fits sets and a failing one
keeps; and a boot over its own image writes the same bytes again. -/
theorem resetIsIdempotent : Obligations.ResetIsIdempotent := by
  intro s hcfg
  obtain h | h := Nat.lt_or_ge s.env.cfg.progCap s.env.image.length
  · refine ⟨?_, fun hfits => absurd h (Nat.not_lt.mpr hfits)⟩
    rw [resetMachine_of_too_long (s := resetMachine s) (by rw [resetMachine_of_too_long h]; exact h),
      resetMachine_of_too_long h]
    rfl
  · have hagain : memWriteAll (memWriteAll [] s.env.cfg.progBase s.env.image) s.env.cfg.progBase s.env.image =
        memWriteAll [] s.env.cfg.progBase s.env.image := memWriteAll_memWriteAll memWf_nil _ _ (length_le_of_fits hcfg h)
    refine ⟨?twice, fun _ => ⟨?boot, ?fresh⟩⟩
    case twice =>
      rw [resetMachine_of_fits (s := resetMachine s) (by rw [resetMachine_of_fits h]; exact h), resetMachine_of_fits h]
      rfl
    case boot =>
      rw [boot_of_fits (s := resetMachine s) (by rw [resetMachine_of_fits h]; exact h), resetMachine_of_fits h]
      conv => rhs; rw [← hagain]
      rfl
    case fresh =>
      rw [boot_of_fits (s := State.fresh s.env.cfg) h, resetMachine_of_fits h]
      rfl

/-! ### The reset state is in order -/

theorem resetWith_wf {cfg : Config} (h : cfg.wf = true) : (State.resetWith cfg).wf = true :=
  (State.wf_iff _).mpr ⟨h, memWf_nil, Nat.zero_le _, List.length_replicate⟩

/-- Settles O47; the default configuration is one of the admissible ones. -/
theorem resetStateIsInOrder : Obligations.ResetStateIsInOrder :=
  ⟨resetWith_wf (by decide : defaultConfig.wf = true), fun _ h => resetWith_wf h⟩

end Sys2Proof.Machine
end

section
/-! PROOFS. What one step can do to each part of the state: first what an instruction and what a tick write, part by part,
then one case for each kind of step, and from these the invariants and the lists of writers. -/

namespace Sys2Proof.Machine

/-! ### What an instruction writes -/

/-- PUSH faults at the top and stores below it. -/
theorem exec_push_cases {a : Reg} {s u : State} (h : exec (.push a) s = .next u) :
    (s.sp = 0xFF#8 ∧ u = raiseFault .stackOverflow s) ∨
    (s.sp ≠ 0xFF#8 ∧ u = fallThrough 1 ((s.setMem (memWrite s.mem s.sp (readReg a s))).setSp (s.sp + 1#8))) := by
  by_cases hsp : s.sp = 0xFF#8
  · rw [exec_push_of_top a hsp] at h; cases h; exact .inl ⟨hsp, rfl⟩
  · rw [exec_push_of_room a hsp] at h; cases h; exact .inr ⟨hsp, rfl⟩

section
variable {i : Instr} {s u : State} (h : exec i s = .next u)
include h

/-- ST and PUSH write one byte of memory, and no other instruction any. -/
theorem exec_mem : u.mem = s.mem ∨
    (∃ a b, i = .st a b ∧ u.mem = memWrite s.mem (readReg a s) (readReg b s)) ∨
    (∃ a, i = .push a ∧ s.sp ≠ 0xFF#8 ∧ u.mem = memWrite s.mem s.sp (readReg a s)) := by
  cases i with
  | st a b => cases h; exact .inr (.inl ⟨a, b, rfl, rfl⟩)
  | push a =>
    obtain ⟨-, rfl⟩ | ⟨hsp, rfl⟩ := exec_push_cases h
    · exact .inl rfl
    · exact .inr (.inr ⟨a, rfl, hsp, rfl⟩)
  | jmpif => rw [exec_jmpif_eq] at h; cases h; exact .inl rfl
  | data | ld | jmp | jmpr | int | hlt | cli | add | sub | inc | dec | cmp | pop => cases h; exact .inl rfl

/-- An instruction writes no register but its destination. -/
theorem exec_readReg (q : Reg) : readReg q u = readReg q s ∨ destination i = some q := by
  have written : ∀ (d : Reg) (v : Byte) (w : State), readReg q (writeReg d v w) = readReg q w ∨ some d = some q := by
    intro d v w
    rw [readReg_writeReg]
    split
    · next heq => exact .inr (congrArg some heq.symm)
    · exact .inl rfl
  cases i with
  | push a => obtain ⟨-, rfl⟩ | ⟨-, rfl⟩ := exec_push_cases h <;> exact .inl rfl
  | jmpif => rw [exec_jmpif_eq] at h; cases h; exact .inl rfl
  | st | jmp | jmpr | int | hlt | cli | cmp => cases h; exact .inl rfl
  | data | ld | add | sub | inc | dec | pop => cases h; exact written _ _ _

/-- Only PUSH and POP move SP, by one. -/
theorem exec_sp : u.sp = s.sp ∨ (∃ a, i = .push a ∧ u.sp = s.sp + 1#8) ∨ (∃ a, i = .pop a ∧ u.sp = s.sp - 1#8) := by
  cases i with
  | push a =>
    obtain ⟨-, rfl⟩ | ⟨-, rfl⟩ := exec_push_cases h
    · exact .inl rfl
    · exact .inr (.inl ⟨a, rfl, rfl⟩)
  | pop a => cases h; exact .inr (.inr ⟨a, rfl, rfl⟩)
  | jmpif => rw [exec_jmpif_eq] at h; cases h; exact .inl rfl
  | data | ld | st | jmp | jmpr | int | hlt | cli | add | sub | inc | dec | cmp => cases h; exact .inl rfl

/-- Only INT writes the register INT. -/
theorem exec_int : u.int = s.int ∨ i = .int u.int := by
  cases i with
  | int imm => cases h; exact .inr rfl
  | push a => obtain ⟨-, rfl⟩ | ⟨-, rfl⟩ := exec_push_cases h <;> exact .inl rfl
  | jmpif => rw [exec_jmpif_eq] at h; cases h; exact .inl rfl
  | data | ld | st | jmp | jmpr | hlt | cli | add | sub | inc | dec | cmp | pop => cases h; exact .inl rfl

/-- Only the arithmetic instructions write the flags. -/
theorem exec_flags : u.flags = s.flags ∨ i.op ∈ [Op.add, Op.sub, Op.inc, Op.dec, Op.cmp] := by
  cases i with
  | add | sub | inc | dec | cmp => exact .inr (by simp [Instr.op])
  | push a => obtain ⟨-, rfl⟩ | ⟨-, rfl⟩ := exec_push_cases h <;> exact .inl rfl
  | jmpif => rw [exec_jmpif_eq] at h; cases h; exact .inl rfl
  | data | ld | st | jmp | jmpr | int | hlt | cli | pop => cases h; exact .inl rfl

/-- Only HLT writes HALTED, and falls through. -/
theorem exec_halted : u.halted = s.halted ∨ (i = .hlt ∧ u.iar = s.iar + 1#8) := by
  cases i with
  | hlt => cases h; exact .inr ⟨rfl, rfl⟩
  | push a => obtain ⟨-, rfl⟩ | ⟨-, rfl⟩ := exec_push_cases h <;> exact .inl rfl
  | jmpif => rw [exec_jmpif_eq] at h; cases h; exact .inl rfl
  | data | ld | st | jmp | jmpr | int | cli | add | sub | inc | dec | cmp | pop => cases h; exact .inl rfl

/-- Only PUSH raises a fault, at the top of the stack region. -/
theorem exec_fault : u.fault = s.fault ∨
    (∃ a, i = .push a ∧ s.sp = 0xFF#8 ∧ u.fault = some ⟨.stackOverflow, s.iar⟩) := by
  cases i with
  | push a =>
    obtain ⟨hsp, rfl⟩ | ⟨-, rfl⟩ := exec_push_cases h
    · exact .inr ⟨a, rfl, hsp, rfl⟩
    · exact .inl rfl
  | jmpif => rw [exec_jmpif_eq] at h; cases h; exact .inl rfl
  | data | ld | st | jmp | jmpr | int | hlt | cli | add | sub | inc | dec | cmp | pop => cases h; exact .inl rfl
end

/-! ### What a tick writes -/

/-- A tick that serves the keyboard drains the buffer as it stood; no other tick writes memory or a register. -/
theorem serviceAll_mem_regs (s : State) :
    ((serviceAll s).mem = s.mem ∧ (serviceAll s).regs = s.regs) ∨
    (s.int = s.env.cfg.intKeyboard ∧ 0 < s.kbuf.length ∧
      (serviceAll s).mem = memWriteAll s.mem s.env.cfg.kbdBase s.kbuf ∧
      (serviceAll s).regs = putReg (putReg s.regs s.env.cfg.kbdAddrReg s.env.cfg.kbdBase) s.env.cfg.kbdCountReg
        (BitVec.ofNat 8 s.kbuf.length)) := by
  cases hack : s.iack with
  | true =>
    rw [serviceAll_acknowledging hack, screenProcess_frame, acknowledge_eq]
    exact .inl ⟨rfl, rfl⟩
  | false =>
    rw [serviceAll_of_no_ack hack]
    split
    · rw [screenProcess_frame]
      exact .inl ⟨rfl, rfl⟩
    · rw [screenProcess_frame]
      obtain ⟨-, h⟩ | ⟨hint, hkeys, h⟩ := keyboardProcess_cases
        { s with fault := (screenProcess s).fault, pix := (screenProcess s).pix }
      · rw [h]; exact .inl ⟨rfl, rfl⟩
      · rw [h]; exact .inr ⟨hint, hkeys, rfl, rfl⟩

/-- A tick leaves the keyboard's buffer or empties it. -/
theorem serviceAll_kbuf (s : State) : (serviceAll s).kbuf = s.kbuf ∨ (serviceAll s).kbuf = [] := by
  cases hack : s.iack with
  | true =>
    rw [serviceAll_acknowledging hack, screenProcess_frame, acknowledge_eq]
    exact .inr rfl
  | false =>
    rw [serviceAll_of_no_ack hack]
    split
    · rw [screenProcess_frame]
      exact .inl rfl
    · rw [screenProcess_frame]
      obtain ⟨-, h⟩ | ⟨-, -, h⟩ := keyboardProcess_cases
        { s with fault := (screenProcess s).fault, pix := (screenProcess s).pix }
      · rw [h]; exact .inl rfl
      · rw [h]; exact .inr rfl

/-- The screen service writes one pixel at most, and so keeps their number. -/
theorem screenProcess_pix_length (s : State) : (screenProcess s).pix.length = s.pix.length := by
  obtain ⟨-, h⟩ | ⟨-, -, h⟩ | ⟨-, -, h⟩ := screenProcess_cases s
  · rw [h]
  · rw [h]; rfl
  · rw [h]; exact List.length_set

/-- A tick keeps one byte for each pixel. -/
theorem serviceAll_pix_length {s : State} (h : s.pix.length = s.env.cfg.pixels) :
    (serviceAll s).pix.length = s.env.cfg.pixels := by
  cases hack : s.iack with
  | true =>
    rw [serviceAll_acknowledging hack, screenProcess_pix_length, acknowledge_eq]
    exact List.length_replicate
  | false =>
    have hscreen := (screenProcess_pix_length s).trans h
    rw [serviceAll_of_no_ack hack]
    split
    · exact hscreen
    · rw [keyboardProcess_frame]; exact hscreen

/-- A tick changes INT only where it acknowledges with ACK_CLEARS_INT, to 0. -/
theorem serviceAll_int (s : State) : (serviceAll s).int = s.int ∨
    (s.iack = true ∧ s.env.cfg.ackClearsInt = true ∧ (serviceAll s).int = 0#8) := by
  cases hack : s.iack with
  | true =>
    rw [serviceAll_acknowledging hack, screenProcess_frame, acknowledge]
    split
    · next hclears => exact .inr ⟨rfl, hclears, rfl⟩
    · exact .inl rfl
  | false =>
    rw [serviceAll_of_no_ack hack]
    split
    · rw [screenProcess_frame]; exact .inl rfl
    · rw [keyboardProcess_frame, screenProcess_frame]; exact .inl rfl

/-- The screen service raises ScreenIndexOutOfRange alone, at its code with an index outside. -/
theorem screenProcess_fault (s : State) : (screenProcess s).fault = s.fault ∨
    (s.int = s.env.cfg.intScreen ∧ s.env.cfg.pixels ≤ pixelIndex s ∧
      (screenProcess s).fault = some ⟨.screenIndexOutOfRange, s.iar⟩) := by
  obtain ⟨-, h⟩ | ⟨hint, hout, h⟩ | ⟨-, -, h⟩ := screenProcess_cases s
  · rw [h]; exact .inl rfl
  · rw [h]; exact .inr ⟨hint, hout, rfl⟩
  · rw [h]; exact .inl rfl

/-- A tick raises ScreenIndexOutOfRange alone; the code and the index are those before the acknowledgement too, since 0 is
not the screen's code. -/
theorem serviceAll_fault {s : State} (hcfg : s.env.cfg.wf = true) : (serviceAll s).fault = s.fault ∨
    (s.int = s.env.cfg.intScreen ∧ s.env.cfg.pixels ≤ pixelIndex s ∧
      (serviceAll s).fault = some ⟨.screenIndexOutOfRange, s.iar⟩) := by
  cases hack : s.iack with
  | true =>
    by_cases hidle : s.env.cfg.ackClearsInt = true ∨ s.int ≠ s.env.cfg.intScreen
    · rw [serviceAll_eq_acknowledge hcfg hack hidle]
      exact .inl (acknowledge_fault s)
    · rw [not_or, not_not] at hidle
      obtain ⟨hkept, hint⟩ := hidle
      rw [serviceAll_acknowledging hack]
      obtain h | ⟨-, hout, h⟩ := screenProcess_fault (acknowledge s)
      · exact .inl (h.trans (acknowledge_fault s))
      · rw [acknowledge_eq] at hout h ⊢
        exact .inr ⟨hint, hout, h⟩
  | false =>
    rw [serviceAll_of_no_ack hack]
    split
    · exact screenProcess_fault s
    · rw [keyboardProcess_frame]; exact screenProcess_fault s

/-! ### What a step can do -/

/-- The kinds of step, each with what it needs and the state it leads to (60_exceptions.md R208). An instruction is executed
in the state `s` but for the call taken off the schedule, MAR and IR. -/
inductive Transition (s : State) : State → Prop
  | refusesByte (rest : List HostCall) (hnext : s.nextIs .cycle) (hs : s.canStep)
      (hop : decodeOp s.env.cfg.opc (memRead s.mem s.iar) = .error .unknownOpcode) :
      Transition s (unknownOpcode (fetch (s.setCalls rest)))
  | executes (i : Instr) (rest : List HostCall) (mar ir : Byte) (u : State) (hruns : s.runs i) (hs : s.canStep)
      (hexec : exec i (((s.setCalls rest).setMar mar).setIr ir) = .next u) : Transition s (u.setReply (cycleReply i u))
  | ticks (rest : List HostCall) (hnext : s.nextIs .tick) (hf : s.fault = none) :
      Transition s ((serviceAll (s.setCalls rest)).setReply (callReply (serviceAll (s.setCalls rest)).fault))
  | delivers (p : Peripheral) (v : Byte) (rest : List HostCall) (hnext : s.nextIs (.deliver p v)) :
      Transition s (deliver p v (s.setCalls rest))
  | boots (img : List Byte) (rest : List HostCall) (hnext : s.nextIs (.boot img)) :
      Transition s (boot img (s.setCalls rest))
  | resets (rest : List HostCall) (hnext : s.nextIs .reset) : Transition s (resetMachine (s.setCalls rest))

theorem transition_of_step {s t : State} (h : step s = .next t) : Transition s t := by
  obtain ⟨rest, ⟨hcalls, hcycle⟩ | ⟨hcalls, htick⟩ | ⟨p, v, hcalls, rfl⟩ | ⟨img, hcalls, rfl⟩ | ⟨hcalls, rfl⟩⟩ := step_cases h
  · have hnext : s.nextIs .cycle := (nextIs_cycle_iff s).mpr ⟨rest, hcalls⟩
    obtain ⟨hf, hh, ⟨hop, rfl⟩ | ⟨op, u, hop, hexec, rfl⟩⟩ := cycle_cases hcycle
    · exact .refusesByte rest hnext ⟨hh, hf⟩ hop
    · rw [State.fetched_eq] at hexec
      exact .executes _ rest _ _ u ⟨hnext, decode_nextBytes (s := s) hop⟩ ⟨hh, hf⟩ hexec
  · obtain ⟨hf, rfl⟩ := tick_cases htick
    exact .ticks rest (by simp [State.nextIs, nextCall, hcalls]) hf
  · exact .delivers p v rest (by simp [State.nextIs, nextCall, hcalls])
  · exact .boots img rest (by simp [State.nextIs, nextCall, hcalls])
  · exact .resets rest (by simp [State.nextIs, nextCall, hcalls])

/-- A boot writes IAR, MAR, FAULT, memory, the remembered image and the reply at most. -/
theorem boot_frame (img : List Byte) (s : State) : boot img s =
    { s with iar := (boot img s).iar, mar := (boot img s).mar, fault := (boot img s).fault, mem := (boot img s).mem,
             env := { s.env with image := img, reply := (boot img s).env.reply } } := by
  obtain h | h := Nat.lt_or_ge s.env.cfg.progCap img.length
  · rw [boot_of_too_long h]; rfl
  · rw [boot_of_fits h]; rfl

/-- A boot leaves memory, or writes its image to it. -/
theorem boot_mem (img : List Byte) (s : State) :
    (boot img s).mem = s.mem ∨ (boot img s).mem = memWriteAll s.mem s.env.cfg.progBase img := by
  obtain h | h := Nat.lt_or_ge s.env.cfg.progCap img.length
  · rw [boot_of_too_long h]; exact .inl rfl
  · rw [boot_of_fits h]; exact .inr rfl

/-- A boot leaves FAULT, or raises ImageTooLarge for an image that does not fit. -/
theorem boot_fault (img : List Byte) (s : State) : (boot img s).fault = s.fault ∨
    (s.env.cfg.progCap < img.length ∧ (boot img s).fault = some ⟨.imageTooLarge, s.iar⟩) := by
  obtain h | h := Nat.lt_or_ge s.env.cfg.progCap img.length
  · rw [boot_of_too_long h]; exact .inr ⟨h, rfl⟩
  · rw [boot_of_fits h]; exact .inl rfl

/-! ### The state stays in order -/

theorem boot_wf {s : State} (h : s.wf = true) (img : List Byte) : (boot img s).wf = true := by
  obtain ⟨hcfg, hm, hk, hp⟩ := (State.wf_iff s).mp h
  have hmem : (boot img s).mem.wf = true := by
    obtain heq | heq := boot_mem img s
    · rwa [heq]
    · rw [heq]; exact memWriteAll_wf hm _ img
  rw [State.wf_iff]
  rw [boot_frame] at hmem ⊢
  exact ⟨hcfg, hmem, hk, hp⟩

theorem clearMachine_wf {s : State} (h : s.env.cfg.wf = true) : (clearMachine s).wf = true :=
  (State.wf_iff _).mpr ⟨h, memWf_nil, Nat.zero_le _, List.length_replicate⟩

theorem exec_wf {i : Instr} {s u : State} (h : exec i s = .next u) (hs : s.wf = true) : u.wf = true := by
  obtain ⟨hcfg, hm, hk, hp⟩ := (State.wf_iff s).mp hs
  have hmem : u.mem.wf = true := by
    obtain heq | ⟨a, b, -, heq⟩ | ⟨a, -, -, heq⟩ := exec_mem h
    · rwa [heq]
    · rw [heq]; exact memWrite_wf hm _ _
    · rw [heq]; exact memWrite_wf hm _ _
  rw [exec_frame h]
  exact (State.wf_iff _).mpr ⟨hcfg, hmem, hk, hp⟩

theorem serviceAll_wf {s : State} (h : s.wf = true) : (serviceAll s).wf = true := by
  obtain ⟨hcfg, hm, hk, hp⟩ := (State.wf_iff s).mp h
  have hmem : (serviceAll s).mem.wf = true := by
    obtain ⟨heq, -⟩ | ⟨-, -, heq, -⟩ := serviceAll_mem_regs s
    · rwa [heq]
    · rw [heq]; exact memWriteAll_wf hm _ _
  have hkbuf : (serviceAll s).kbuf.length ≤ s.env.cfg.kbdMax := by
    obtain heq | heq := serviceAll_kbuf s
    · rwa [heq]
    · rw [heq]; exact Nat.zero_le _
  have hpix := serviceAll_pix_length hp
  rw [serviceAll_frame]
  exact (State.wf_iff _).mpr ⟨hcfg, hmem, hkbuf, hpix⟩

theorem deliver_wf {s : State} (h : s.wf = true) (p : Peripheral) (v : Byte) : (deliver p v s).wf = true := by
  obtain ⟨hcfg, hm, hk, hp⟩ := (State.wf_iff s).mp h
  rw [deliver_eq]
  refine (State.wf_iff _).mpr ⟨hcfg, hm, ?_, hp⟩
  simp only [State.setReply_kbuf, State.setKbuf_kbuf, State.setReply_env_cfg, State.setKbuf_env]
  split
  · next hroom => rw [List.length_append]; exact hroom.2
  · exact hk

/-- Settles O46. Order does not look at the schedule, MAR, IR, FAULT or the reply, and each call keeps what it does look
at. -/
theorem everyStepKeepsTheStateInOrder : Obligations.EveryStepKeepsTheStateInOrder := by
  intro s t hs h
  cases transition_of_step h with
  | refusesByte rest => exact hs
  | executes i rest mar ir u _ _ hexec =>
    have hu : u.wf = true := exec_wf hexec hs
    exact hu
  | ticks rest => exact serviceAll_wf (s := s.setCalls rest) hs
  | delivers p v rest => exact deliver_wf (s := s.setCalls rest) hs p v
  | boots img rest => exact boot_wf (s := s.setCalls rest) hs img
  | resets rest =>
    exact boot_wf (clearMachine_wf (s := s.setCalls rest) ((State.wf_iff s).mp hs).1) _

/-! ### Latches, faults and the lists of writers -/

/-- Settles O48: the CPU has a step only where neither latch is set, a tick and a boot do not touch HALTED, and no call but
reset takes a fault away. -/
theorem onlyResetClearsHaltedAndFault : Obligations.OnlyResetClearsHaltedAndFault := by
  intro s t h
  cases transition_of_step h with
  | refusesByte rest _ hs =>
    exact ⟨fun _ => ⟨id, fun hfault => absurd hs.2 hfault⟩, fun hh hset => absurd (hset.symm.trans hh) nofun⟩
  | executes i rest mar ir u hruns hs hexec =>
    refine ⟨fun _ => ⟨fun hset => absurd (hset.symm.trans hs.1) nofun, fun hfault => absurd hs.2 hfault⟩, fun hh hset => ?_⟩
    obtain heq | ⟨rfl, hiar⟩ := exec_halted hexec
    · exact absurd (hset.symm.trans (heq.trans hh)) nofun
    · exact ⟨hruns, hiar⟩
  | ticks rest _ hf =>
    rw [serviceAll_frame]
    exact ⟨fun _ => ⟨id, fun hfault => absurd hf hfault⟩, fun hh hset => absurd (hset.symm.trans hh) nofun⟩
  | delivers p v rest =>
    rw [deliver_eq]
    exact ⟨fun _ => ⟨id, id⟩, fun hh hset => absurd (hset.symm.trans hh) nofun⟩
  | boots img rest =>
    have hfault : s.fault ≠ none → (boot img (s.setCalls rest)).fault ≠ none := by
      obtain heq | ⟨-, heq⟩ := boot_fault img (s.setCalls rest)
      · rw [heq]; exact id
      · rw [heq]; exact fun _ => Option.some_ne_none _
    rw [boot_frame] at hfault ⊢
    exact ⟨fun _ => ⟨id, hfault⟩, fun hh hset => absurd (hset.symm.trans hh) nofun⟩
  | resets rest hnext =>
    refine ⟨fun hnot => absurd hnext hnot, fun _ hset => ?_⟩
    rw [resetMachine, boot_frame] at hset
    exact absurd hset nofun

/-- Settles O49: an unassigned byte, PUSH, the screen service and boot are all that raise a fault, each its own kind. -/
theorem faultsHaveTheirCauses : Obligations.FaultsHaveTheirCauses := by
  intro s t f hs h hf ht
  have hcfg := ((State.wf_iff s).mp hs).1
  cases transition_of_step h with
  | refusesByte rest hnext _ hop =>
    obtain rfl : _ = f := Option.some.inj ht
    exact ⟨rfl, hnext, _, hop⟩
  | executes i rest mar ir u hruns _ hexec =>
    obtain heq | ⟨a, rfl, hsp, heq⟩ := exec_fault hexec
    · exact absurd (ht.symm.trans (heq.trans hf)) nofun
    · obtain rfl : _ = f := Option.some.inj (heq.symm.trans ht)
      exact ⟨rfl, hsp, a, hruns⟩
  | ticks rest hnext =>
    obtain heq | ⟨hint, hout, heq⟩ := serviceAll_fault (s := s.setCalls rest) hcfg
    · exact absurd (ht.symm.trans (heq.trans hf)) nofun
    · obtain rfl : _ = f := Option.some.inj (heq.symm.trans ht)
      exact ⟨rfl, hnext, hint, hout⟩
  | delivers p v rest =>
    rw [deliver_eq] at ht
    exact absurd (ht.symm.trans hf) nofun
  | boots img rest hnext =>
    obtain heq | ⟨hlong, heq⟩ := boot_fault img (s.setCalls rest)
    · exact absurd (ht.symm.trans (heq.trans hf)) nofun
    · obtain rfl : _ = f := Option.some.inj (heq.symm.trans ht)
      exact ⟨rfl, .inl ⟨img, hnext, hlong⟩⟩
  | resets rest hnext =>
    obtain heq | ⟨hlong, heq⟩ := boot_fault s.env.image (clearMachine (s.setCalls rest))
    · exact absurd (ht.symm.trans heq) nofun
    · obtain rfl : _ = f := Option.some.inj (heq.symm.trans ht)
      exact ⟨rfl, .inr ⟨hnext, hlong⟩⟩

/-- A byte that a write of one byte changes is the one written. -/
theorem eq_of_memRead_memWrite_ne {m : Memory} (hm : m.wf = true) {a v x : Byte}
    (h : memRead (memWrite m a v) x ≠ memRead m x) : x = a := by
  by_contra hne
  rw [memRead_memWrite hm, if_neg hne] at h
  exact h rfl

/-- A byte that a write of consecutive bytes changes is one of those. -/
theorem exists_of_memRead_memWriteAll_ne {m : Memory} (hm : m.wf = true) {a x : Byte} {vs : List Byte}
    (h : memRead (memWriteAll m a vs) x ≠ memRead m x) : ∃ i < vs.length, x = a + BitVec.ofNat 8 i := by
  by_contra hnone
  exact h (memRead_memWriteAll_of_not hm a x vs fun i hi heq => hnone ⟨i, hi, heq⟩)

/-- Settles O50: each kind of step leaves memory, or is one write, and a byte that a write changes lies in its range. -/
theorem memoryIsWrittenOnlyByItsWriters : Obligations.MemoryIsWrittenOnlyByItsWriters := by
  intro s t x hm h hne
  cases transition_of_step h with
  | refusesByte rest => exact absurd rfl hne
  | executes i rest mar ir u hruns _ hexec =>
    rw [State.setReply_mem] at hne
    obtain heq | ⟨a, b, rfl, heq⟩ | ⟨a, rfl, hsp, heq⟩ := exec_mem hexec
    · exact absurd (by rw [heq]; rfl) hne
    · rw [heq] at hne
      exact .inl ⟨a, b, hruns, eq_of_memRead_memWrite_ne hm hne⟩
    · rw [heq] at hne
      exact .inr (.inl ⟨a, hruns, eq_of_memRead_memWrite_ne hm hne, hsp⟩)
  | ticks rest hnext =>
    rw [State.setReply_mem] at hne
    obtain ⟨heq, -⟩ | ⟨hint, -, heq, -⟩ := serviceAll_mem_regs (s.setCalls rest)
    · exact absurd (by rw [heq]; rfl) hne
    · rw [heq] at hne
      exact .inr (.inr (.inl ⟨hnext, hint, exists_of_memRead_memWriteAll_ne hm hne⟩))
  | delivers p v rest =>
    rw [deliver_eq] at hne
    exact absurd rfl hne
  | boots img rest hnext =>
    obtain heq | heq := boot_mem img (s.setCalls rest)
    · exact absurd (by rw [heq]; rfl) hne
    · rw [heq] at hne
      exact .inr (.inr (.inr (.inl ⟨img, hnext, exists_of_memRead_memWriteAll_ne hm hne⟩)))
  | resets rest hnext => exact .inr (.inr (.inr (.inr hnext)))

/-- Settles O51: an instruction writes its destination, a drain its two registers, and a boot none. -/
theorem registersAreWrittenOnlyByTheirWriters : Obligations.RegistersAreWrittenOnlyByTheirWriters := by
  intro s t q h hne
  cases transition_of_step h with
  | refusesByte rest => exact absurd rfl hne
  | executes i rest mar ir u hruns _ hexec =>
    exact .inl ⟨i, hruns, (exec_readReg hexec q).resolve_left hne⟩
  | ticks rest hnext =>
    obtain ⟨-, heq⟩ | ⟨hint, hkeys, -, heq⟩ := serviceAll_mem_regs (s.setCalls rest)
    · exact absurd (congrArg (getReg · q) heq) hne
    · refine .inr (.inl ⟨hnext, hint, List.length_pos_iff.mp hkeys, ?_⟩)
      by_contra hnot
      rw [not_or] at hnot
      refine hne ((congrArg (getReg · q) heq).trans ?_)
      exact (getReg_putReg ..).trans ((if_neg hnot.2).trans ((getReg_putReg ..).trans (if_neg hnot.1)))
  | delivers p v rest =>
    rw [deliver_eq] at hne
    exact absurd rfl hne
  | boots img rest =>
    rw [boot_frame] at hne
    exact absurd rfl hne
  | resets rest hnext => exact .inr (.inr hnext)

/-- Settles O52: of the instructions PUSH, POP and INT write them, of the services the acknowledgement alone. -/
theorem spAndIntAreWrittenOnlyByTheirWriters : Obligations.SpAndIntAreWrittenOnlyByTheirWriters := by
  intro s t h
  cases transition_of_step h with
  | refusesByte rest => exact ⟨fun hne => absurd rfl hne, fun hne => absurd rfl hne⟩
  | executes i rest mar ir u hruns _ hexec =>
    refine ⟨fun hne => ?sp, fun hne => ?int⟩
    case sp =>
      obtain heq | ⟨a, rfl, heq⟩ | ⟨a, rfl, heq⟩ := exec_sp hexec
      · exact absurd heq hne
      · exact .inl ⟨a, hruns, heq⟩
      · exact .inr (.inl ⟨a, hruns, heq⟩)
    case int =>
      obtain heq | rfl := exec_int hexec
      · exact absurd heq hne
      · exact .inl hruns
  | ticks rest hnext =>
    refine ⟨fun hne => ?sp, fun hne => ?int⟩
    case sp =>
      rw [serviceAll_frame] at hne
      exact absurd rfl hne
    case int =>
      obtain heq | ⟨hack, hclears, heq⟩ := serviceAll_int (s.setCalls rest)
      · exact absurd heq hne
      · exact .inr (.inl ⟨hnext, hack, hclears, heq⟩)
  | delivers p v rest =>
    rw [deliver_eq]
    exact ⟨fun hne => absurd rfl hne, fun hne => absurd rfl hne⟩
  | boots img rest =>
    rw [boot_frame]
    exact ⟨fun hne => absurd rfl hne, fun hne => absurd rfl hne⟩
  | resets rest hnext =>
    rw [resetMachine, boot_frame]
    exact ⟨fun _ => .inr (.inr hnext), fun _ => .inr (.inr ⟨hnext, rfl⟩)⟩

/-- Settles O53: only instructions and reset write the flags, and of the instructions the arithmetic ones. -/
theorem flagsAreWrittenOnlyByArithmetic : Obligations.FlagsAreWrittenOnlyByArithmetic := by
  intro s t h hne
  cases transition_of_step h with
  | refusesByte rest => exact absurd rfl hne
  | executes i rest mar ir u hruns _ hexec => exact .inl ⟨i, hruns, (exec_flags hexec).resolve_left hne⟩
  | ticks rest =>
    rw [serviceAll_frame] at hne
    exact absurd rfl hne
  | delivers p v rest =>
    rw [deliver_eq] at hne
    exact absurd rfl hne
  | boots img rest =>
    rw [boot_frame] at hne
    exact absurd rfl hne
  | resets rest hnext => exact .inr hnext

/-- Settles O54, from the frame of each kind of step; clearing puts 0x00 in OUT. -/
theorem outAndTheConfigurationStay : Obligations.OutAndTheConfigurationStay := by
  intro s t h
  cases transition_of_step h with
  | refusesByte rest => exact ⟨rfl, fun hne => absurd rfl hne⟩
  | executes i rest mar ir u _ _ hexec =>
    rw [exec_frame hexec]
    exact ⟨rfl, fun hne => absurd rfl hne⟩
  | ticks rest =>
    rw [serviceAll_frame]
    exact ⟨rfl, fun hne => absurd rfl hne⟩
  | delivers p v rest =>
    rw [deliver_eq]
    exact ⟨rfl, fun hne => absurd rfl hne⟩
  | boots img rest =>
    rw [boot_frame]
    exact ⟨rfl, fun hne => absurd rfl hne⟩
  | resets rest hnext =>
    rw [resetMachine, boot_frame]
    exact ⟨rfl, fun _ => ⟨hnext, rfl⟩⟩

end Sys2Proof.Machine
end

section
/-! PROOFS. Assembly (30_encoding.md R83 to R89): what each line contributes to the image, and what a label stands for. -/

namespace Sys2Proof.Machine

/-! ### Results that may fail -/

/-- A sequence that succeeds succeeds at both steps. -/
theorem bind_ok {ε α β : Type} {x : Except ε α} {f : α → Except ε β} {b : β} (h : (x >>= f) = .ok b) :
    ∃ a, x = .ok a ∧ f a = .ok b := by
  cases x with
  | error e => cases h
  | ok a => exact ⟨a, rfl, h⟩

/-! ### The line of an instruction -/

/-- The row that a mnemonic names. -/
def SrcMnemonic.row : SrcMnemonic → Op
  | .plain op => op
  | .jmpif _ => .jmpif

/-- An instruction line takes the bytes of its mnemonic's row. -/
theorem lineSize_instr (m : SrcMnemonic) (ops : List SrcOperand) : lineSize (.instr m ops) = opLength m.row := by
  cases m <;> rfl

theorem asmTwo_ok {mk : Reg → Reg → Instr} {ops : List SrcOperand} {i : Instr} (h : asmTwo mk ops = .ok i) :
    ∃ a b, i = mk a b := by
  unfold asmTwo at h
  split at h
  · obtain ⟨a, -, h⟩ := bind_ok h
    obtain ⟨b, -, h⟩ := bind_ok h
    cases h
    exact ⟨a, b, rfl⟩
  · cases h

theorem asmOne_ok {mk : Reg → Instr} {ops : List SrcOperand} {i : Instr} (h : asmOne mk ops = .ok i) : ∃ a, i = mk a := by
  unfold asmOne at h
  split at h
  · obtain ⟨a, -, h⟩ := bind_ok h
    cases h
    exact ⟨a, rfl⟩
  · cases h

theorem asmNone_ok {j i : Instr} {ops : List SrcOperand} (h : asmNone j ops = .ok i) : i = j := by
  unfold asmNone at h
  split at h
  · cases h; rfl
  · cases h

/-- An assembled instruction is of the row its mnemonic names. -/
theorem asmInstr_op {cfg : Config} {t : LabelTable} {m : SrcMnemonic} {ops : List SrcOperand} {i : Instr}
    (h : asmInstr cfg t m ops = .ok i) : i.op = m.row := by
  cases m with
  | jmpif suffix =>
    simp only [asmInstr] at h
    split at h
    · obtain ⟨c, -, h⟩ := bind_ok h
      obtain ⟨imm, -, h⟩ := bind_ok h
      cases h; rfl
    · cases h
  | plain op =>
    cases op with
    | jmpif => cases h
    | data =>
      simp only [asmInstr] at h
      split at h
      · obtain ⟨a, -, h⟩ := bind_ok h
        obtain ⟨imm, -, h⟩ := bind_ok h
        cases h; rfl
      · cases h
    | jmp | int =>
      simp only [asmInstr] at h
      split at h
      · obtain ⟨imm, -, h⟩ := bind_ok h
        cases h; rfl
      · cases h
    | cmp =>
      simp only [asmInstr] at h
      split at h
      · cases h
      · obtain ⟨a, b, rfl⟩ := asmTwo_ok h; rfl
    | ld | st | add | sub => obtain ⟨a, b, rfl⟩ := asmTwo_ok h; rfl
    | jmpr | inc | dec | push | pop => obtain ⟨a, rfl⟩ := asmOne_ok h; rfl
    | hlt | cli => obtain rfl := asmNone_ok h; rfl

/-! ### The image -/

/-- The lines of an image are instructions that are assembled, and their bytes are the image. -/
theorem emitLines_instr_ok {cfg : Config} {t : LabelTable} {m : SrcMnemonic} {ops : List SrcOperand} {rest : List SrcLine}
    {img : List Byte} (h : emitLines cfg t (.instr m ops :: rest) = .ok img) :
    ∃ i bytes, asmInstr cfg t m ops = .ok i ∧ emitLines cfg t rest = .ok bytes ∧ img = encode cfg.opc i ++ bytes := by
  rw [emitLines] at h
  obtain ⟨i, hi, h⟩ := bind_ok h
  obtain ⟨bytes, hbytes, h⟩ := bind_ok h
  cases h
  exact ⟨i, bytes, hi, hbytes, rfl⟩

theorem emitLines_length {cfg : Config} {t : LabelTable} {lines : List SrcLine} {img : List Byte}
    (h : emitLines cfg t lines = .ok img) : img.length = linesSize lines := by
  induction lines generalizing img with
  | nil => cases h; rfl
  | cons l rest ih =>
    cases l with
    | label name => rw [linesSize, lineSize, Nat.zero_add]; exact ih h
    | instr m ops =>
      obtain ⟨i, bytes, hi, hbytes, rfl⟩ := emitLines_instr_ok h
      rw [List.length_append, encode_length, asmInstr_op hi, linesSize, lineSize_instr, ih hbytes]

/-- Every instruction line of an image is assembled. -/
theorem asmInstr_ok_of_mem {cfg : Config} {t : LabelTable} {lines : List SrcLine} {img : List Byte}
    (h : emitLines cfg t lines = .ok img) {m : SrcMnemonic} {ops : List SrcOperand} (hmem : .instr m ops ∈ lines) :
    ∃ i, asmInstr cfg t m ops = .ok i := by
  induction lines generalizing img with
  | nil => cases hmem
  | cons l rest ih =>
    cases l with
    | label name => exact ih h (by simpa using hmem)
    | instr m' ops' =>
      obtain ⟨i, bytes, hi, hbytes, -⟩ := emitLines_instr_ok h
      obtain heq | hrest := List.mem_cons.mp hmem
      · cases heq; exact ⟨i, hi⟩
      · exact ih hbytes hrest

/-- A program that is assembled has its labels collected and its lines emitted. -/
theorem assemble_ok {cfg : Config} {lines : List SrcLine} {img : List Byte} (h : assemble cfg lines = .ok img) :
    ∃ t, collectLabels 0 lines = .ok t ∧ emitLines cfg t lines = .ok img := bind_ok h

/-! ### Labels -/

/-- A label line adds its name, which no line after it has, at the offset reached. -/
theorem collectLabels_label_ok {at_ : Nat} {name : String} {rest : List SrcLine} {t : LabelTable}
    (h : collectLabels at_ (.label name :: rest) = .ok t) :
    ∃ t', collectLabels at_ rest = .ok t' ∧ findLabel t' name = none ∧ t = (name, at_) :: t' := by
  rw [collectLabels] at h
  obtain ⟨t', ht', h⟩ := bind_ok h
  split at h
  · cases h
  · next hnone => cases h; exact ⟨t', ht', hnone, rfl⟩

/-- Every label of the lines is in the table. -/
theorem findLabel_ne_none_of_mem {at_ : Nat} {lines : List SrcLine} {t : LabelTable}
    (h : collectLabels at_ lines = .ok t) {name : String} (hmem : .label name ∈ lines) : findLabel t name ≠ none := by
  induction lines generalizing at_ t with
  | nil => cases hmem
  | cons l rest ih =>
    cases l with
    | instr m ops => exact ih (by rwa [collectLabels] at h) (by simpa using hmem)
    | label name' =>
      obtain ⟨t', ht', -, rfl⟩ := collectLabels_label_ok h
      rw [findLabel]
      split
      · exact Option.some_ne_none _
      · next hne =>
        refine ih ht' ((List.mem_cons.mp hmem).resolve_left fun heq => ?_)
        cases heq
        exact hne rfl

/-- A label stands for the bytes before its line, and no other line has its name. -/
theorem collectLabels_spec {at_ : Nat} {before after : List SrcLine} {name : String} {t : LabelTable}
    (h : collectLabels at_ (before ++ .label name :: after) = .ok t) :
    findLabel t name = some (at_ + linesSize before) ∧ .label name ∉ before ∧ .label name ∉ after := by
  induction before generalizing at_ t with
  | nil =>
    obtain ⟨t', ht', hnone, rfl⟩ := collectLabels_label_ok h
    exact ⟨by simp [findLabel, linesSize], List.not_mem_nil, fun hmem => findLabel_ne_none_of_mem ht' hmem hnone⟩
  | cons l before ih =>
    cases l with
    | instr m ops =>
      rw [List.cons_append, collectLabels] at h
      obtain ⟨hfind, hbefore, hafter⟩ := ih h
      exact ⟨by rw [hfind, linesSize, Nat.add_assoc], by simpa using hbefore, hafter⟩
    | label name' =>
      obtain ⟨t', ht', hnone, rfl⟩ := collectLabels_label_ok h
      obtain ⟨hfind, hbefore, hafter⟩ := ih ht'
      have hne : name' ≠ name := fun heq => by rw [heq, hfind] at hnone; cases hnone
      exact ⟨by simp [findLabel, hne, hfind, linesSize, lineSize], by simpa [hne.symm] using hbefore, hafter⟩

/-- Settles O57: the size line by line, and the offset of a label by induction on the lines before it. -/
theorem imageSizeAndLabelOffsets : Obligations.ImageSizeAndLabelOffsets := by
  intro cfg lines img h
  obtain ⟨t, hlabels, hemit⟩ := assemble_ok h
  refine ⟨emitLines_length hemit, t, hlabels, fun before after name heq => ?_⟩
  rw [heq] at hlabels
  simpa using collectLabels_spec hlabels

/-- Settles O58: an image has no line that is refused. -/
theorem cmpImmediateIsRefused : Obligations.CmpImmediateIsRefused := by
  refine fun cfg lines x v => ⟨fun t => rfl, fun hmem img h => ?_⟩
  obtain ⟨t, -, hemit⟩ := assemble_ok h
  obtain ⟨i, hi⟩ := asmInstr_ok_of_mem hemit hmem
  cases hi

end Sys2Proof.Machine
end
